-- ==== Sys2Proof/Word.lean ====
section
/-! DEFINITION. The word types of the TS-4: one name for each width the reference gives a value. -/

namespace Sys2Proof

/-- A byte of the serial link (R153, R172). -/
abbrev Byte := BitVec 8

/-- A coarse count or coarse instant: a 54-bit count of core cycles (R6, R7). -/
abbrev Coarse := BitVec 54

/-- An edge count or edge index, modulo 2^48 (R32). -/
abbrev Count := BitVec 48

/-- A timestamp in quanta, modulo 2^64 (R47). -/
abbrev Time := BitVec 64

/-- A channel CH1 to CH4, numbered from 0 here: CHk is k − 1 (R26). -/
abbrev Chan := Fin 4

/-- A gate descriptor, 0 to 7 (R76). -/
abbrev Desc := Fin 8

/-- A result slot, 0 to 7 (R123). -/
abbrev SlotId := Fin 8

/-- A raw bin of an interpolator, 0 to 159 (R41). -/
abbrev Bin := Fin 160

end Sys2Proof
end

