-- ==== Sys2Proof/Config.lean ====
section
/-! DEFINITION. The fixed quantities of the TS-4: capacities, lengths of intervals and protocol constants, each from the rule that gives it. No value here is open in the reference, so no constant is left without a body. -/

namespace Sys2Proof.Config

/-- The SYNC byte that begins every frame (R173). -/
def sync : Byte := 0x5B

/-- Frame kinds of R173. -/
def kindCommand : Byte := 0x01
def kindReply : Byte := 0x02
def kindNotice : Byte := 0x03
def kindStream : Byte := 0x04

/-- The largest frame payload, in bytes (R154, R168). -/
def maxPayload : Nat := 1040

/-- Commands the command queue holds (R158). -/
def commandQueueSize : Nat := 4

/-- Replies the reply queue holds (R159). -/
def replyQueueSize : Nat := 8

/-- Entries of the stream FIFO (R138). -/
def fifoSize : Nat := 4096

/-- The most entries one stream frame takes (R145). -/
def frameEntries : Nat := 32

/-- The hits of a complete calibration (R62). -/
def hitTarget : Nat := 65536

/-- Core cycles from the acceptance of CALIBRATE to its deadline (R61). -/
def calDeadlineCycles : Coarse := 4000000

/-- Internal-oscillator cycles of ACQUIRE (R8) and of RELOCK (R12). -/
def acquireCycles : Nat := 20000
def relockCycles : Nat := 10000

/-- The divided edges of a good monitor window lie between these two, inclusive (R3). -/
def windowLow : Nat := 990
def windowHigh : Nat := 1010

/-- Consecutive good windows that make the monitor GOOD (R4). -/
def goodRun : Nat := 100

/-- Core cycles of dead time after a stamp (R42). -/
def deadCycles : Coarse := 4

/-- The out-of-span count at which an armed advice is posted (R71). -/
def adviseAt : Nat := 256

/-- The largest value of a 16-bit saturating counter (R46, R165). -/
def sat16 : Nat := 65535

/-- The largest value of a drop count and of a statistics count (R143, R129). -/
def sat32 : Nat := 4294967295

/-- The largest posting count of a queued notice (R161). -/
def sat8 : Nat := 255

end Sys2Proof.Config
end

