-- ==== Sys2Proof/Syntax.lean ====
section
/-! DEFINITION. The commands and events of the TS-4: one constructor of `Instr` for every row of spec/opcode_table.json, in the table's order, with the operands that the rules give the row. -/

namespace Sys2Proof

/-- The five physical inputs (R21). -/
inductive PhysIn where
  | in1 | in2 | in3 | in4 | aux
  deriving DecidableEq, Repr

/-- The rows of the opcode table.

Events carry what reaches the part from outside with them: the closing tick of an edge, a raw bin, the samples
of LNK_RX, the number of the object whose instant expires.

A row that is a link command stands for its execution by the link controller (R159). It carries the
payload bytes that follow the command code, in the order of R173, well-formed or not. A payload of the
wrong length (NAK LENGTH) is thus an operand form like any other. -/
inductive Instr where
  /-- Power-up, or RST_N going low (R171). -/
  | powerOnReset
  /-- The end of the 200 µs start-up interval (R171). -/
  | startUpEnd
  /-- The end of a 100 µs monitor window (R3). -/
  | monitorWindowEnd
  /-- Four internal-oscillator cycles without a divided reference edge (R3). -/
  | starvation
  /-- Expiry of the phase timer in ACQUIRE (R9). -/
  | acquireEnd
  /-- Expiry of the phase timer in RELOCK (R12). -/
  | relockEnd
  /-- An edge at a physical input (R21): its direction, the coarse count of its closing tick, the raw bin
  each channel's interpolator would find at that tick, and, where R53, R87 and R89 leave an order open, the
  order in which channels take the edge and the FIFO their stamps, and the order in which descriptors take
  the stamps, a taking being a channel with a descriptor. What is listed comes first, the rest after it in
  increasing number. -/
  | inputEdge (input : PhysIn) (rising : Bool) (tick : Coarse) (bins : Vector Bin 4)
      (chans : List Chan) (takings : List (Chan × Desc))
  /-- Expiry of a channel's holdoff end instant (R30). -/
  | holdoffExpiry (c : Chan)
  /-- Expiry of an interpolator's dead-time end instant (R42). -/
  | deadTimeExpiry (c : Chan)
  /-- A rising transition of the calibration oscillator, sampled at a core tick with a raw bin (R62). -/
  | calHit (tick : Coarse) (bin : Bin)
  /-- Expiry of the calibration deadline (R64). -/
  | calDeadline
  /-- Expiry of a descriptor's C_end (R91). -/
  | gateNominalEnd (g : Desc)
  /-- Expiry of a descriptor's timeout instant (R94). -/
  | gateTimeout (g : Desc)
  /-- The first core tick after the instant of a close event whose record waits for a count (R92). -/
  | recordFormation (g : Desc)
  /-- Samples of LNK_RX, four to a bit time, true for mark, in order, with no gap of more than 200 µs between two
  bytes (R153, R154). -/
  | frameReceived (samples : List Bool)
  /-- More than 200 µs with no byte while collecting (R155). -/
  | receiveGapExpiry
  /-- LNK_RX held at space for 1 ms (R157). -/
  | linkBreak
  /-- The last byte of the frame on LNK_TX has been sent (R164). -/
  | transmitEnd
  /-- Execution of a command whose payload is empty or names no command; the whole payload (R159). -/
  | unknownCommand (payload : List Byte)
  | identify (args : List Byte)
  | status (args : List Byte)
  /-- RESTART (03h) with every argument but the one byte 2, which is `restartFull`'s (R170). -/
  | restartMeasure (args : List Byte)
  | restartFull (args : List Byte)
  | tbConfig (args : List Byte)
  | tbStart (args : List Byte)
  | tbStop (args : List Byte)
  | tbSelect (args : List Byte)
  | auxSet (args : List Byte)
  | channelSet (args : List Byte)
  | channelRead (args : List Byte)
  | calibrate (args : List Byte)
  | tableRead (args : List Byte)
  | gateWrite (args : List Byte)
  | gateCommit (args : List Byte)
  | gateEnable (args : List Byte)
  /-- GATE STOP (43h) with every argument but a descriptor byte and the mode 2, which is `gateStopAbort`'s (R98). -/
  | gateStopFinish (args : List Byte)
  | gateStopAbort (args : List Byte)
  | gateRead (args : List Byte)
  | slotRead (args : List Byte)
  | slotHold (args : List Byte)
  | slotRelease (args : List Byte)
  | statsClear (args : List Byte)
  | streamSet (args : List Byte)
  | streamClear (args : List Byte)
  | noticeMask (args : List Byte)
  /-- LNKCLK stops (R153). -/
  | lnkclkStop
  /-- LNKCLK returns (R153). -/
  | lnkclkReturn
  /-- LNK_RX returns to mark after a link break (R157). -/
  | lnkRxReturnToMark
  /-- RST_N goes high with power present (R171). -/
  | rstNRelease
  /-- An edge of the reference at REF_IN, in front of the divider (R1, R3). -/
  | referenceEdge
  deriving DecidableEq, Repr

end Sys2Proof
end

