-- ==== Sys2Proof/Decode.lean ====
section
/-! DEFINITION. The payload of a COMMAND frame and the command row it spells, in both directions (R159, R173), and the host's reading of a table word. -/

namespace Sys2Proof

/-- The command row that a payload spells: its first byte is the command code, the rest its arguments; a payload
that is empty or names no command is an UNKNOWN_COMMAND (R159, R173). RESTART and GATE STOP have two rows each,
told apart by the argument that R173 gives them. -/
def decodeCommand (payload : List Byte) : Instr :=
  match payload with
  | [] => .unknownCommand []
  | code :: args =>
    if code = 0x01 then .identify args
    else if code = 0x02 then .status args
    else if code = 0x03 then (if args = [2] then .restartFull args else .restartMeasure args)
    else if code = 0x10 then .tbConfig args
    else if code = 0x11 then .tbStart args
    else if code = 0x12 then .tbStop args
    else if code = 0x13 then .tbSelect args
    else if code = 0x20 then .auxSet args
    else if code = 0x21 then .channelSet args
    else if code = 0x22 then .channelRead args
    else if code = 0x30 then .calibrate args
    else if code = 0x31 then .tableRead args
    else if code = 0x40 then .gateWrite args
    else if code = 0x41 then .gateCommit args
    else if code = 0x42 then .gateEnable args
    else if code = 0x43 then (if args.length = 2 ∧ args.getD 1 0 = 2 then .gateStopAbort args else .gateStopFinish args)
    else if code = 0x44 then .gateRead args
    else if code = 0x50 then .slotRead args
    else if code = 0x51 then .slotHold args
    else if code = 0x52 then .slotRelease args
    else if code = 0x53 then .statsClear args
    else if code = 0x60 then .streamSet args
    else if code = 0x61 then .streamClear args
    else if code = 0x70 then .noticeMask args
    else .unknownCommand (code :: args)

/-- The payload of a command row: its code and its arguments (R173). The other rows are events and have none. -/
def Instr.payload : Instr → Option (List Byte)
  | .unknownCommand p => some p
  | .restartMeasure args => some (0x03 :: args)
  | .restartFull args => some (0x03 :: args)
  | .gateStopFinish args => some (0x43 :: args)
  | .gateStopAbort args => some (0x43 :: args)
  | .identify args => some (0x01 :: args)
  | .status args => some (0x02 :: args)
  | .tbConfig args => some (0x10 :: args)
  | .tbStart args => some (0x11 :: args)
  | .tbStop args => some (0x12 :: args)
  | .tbSelect args => some (0x13 :: args)
  | .auxSet args => some (0x20 :: args)
  | .channelSet args => some (0x21 :: args)
  | .channelRead args => some (0x22 :: args)
  | .calibrate args => some (0x30 :: args)
  | .tableRead args => some (0x31 :: args)
  | .gateWrite args => some (0x40 :: args)
  | .gateCommit args => some (0x41 :: args)
  | .gateEnable args => some (0x42 :: args)
  | .gateRead args => some (0x44 :: args)
  | .slotRead args => some (0x50 :: args)
  | .slotHold args => some (0x51 :: args)
  | .slotRelease args => some (0x52 :: args)
  | .statsClear args => some (0x53 :: args)
  | .streamSet args => some (0x60 :: args)
  | .streamClear args => some (0x61 :: args)
  | .noticeMask args => some (0x70 :: args)
  | .powerOnReset => none
  | .startUpEnd => none
  | .monitorWindowEnd => none
  | .starvation => none
  | .acquireEnd => none
  | .relockEnd => none
  | .inputEdge _ _ _ _ _ _ => none
  | .holdoffExpiry _ => none
  | .deadTimeExpiry _ => none
  | .calHit _ _ => none
  | .calDeadline => none
  | .gateNominalEnd _ => none
  | .gateTimeout _ => none
  | .recordFormation _ => none
  | .frameReceived _ => none
  | .receiveGapExpiry => none
  | .linkBreak => none
  | .transmitEnd => none
  | .lnkclkStop => none
  | .lnkclkReturn => none
  | .lnkRxReturnToMark => none
  | .rstNRelease => none
  | .referenceEdge => none

/-- The command that a table word spells. spec/opcode_table.json gives no row bits, so no word spells one. -/
def decodeTableWord (_nbits _w : Nat) : Option Instr := none

end Sys2Proof
end

