-- ==== Sys2Proof/Machine/Arith.lean ====
section
/-! DEFINITION. Arithmetic of the engine: the comparison of a coarse count with an instant, the two roundings and the saturating counters. -/

namespace Sys2Proof.Machine

/-- A count `c` is at or after an instant `x` when (c − x) modulo 2^54 is below 2^53 (R7). -/
def atOrAfter (c x : Coarse) : Bool := decide ((c - x).toNat < 2 ^ 53)

/-- A counter that stops at its largest value `top` (the introduction's "saturating"). -/
def satInc (top v : Nat) : Nat := if v < top then v + 1 else v

/-- The exact quotient rounded to the nearest integer, an exact half going to the larger. -/
def roundHalfUp (num den : Nat) : Nat := (2 * num + den) / (2 * den)

/-- The exact quotient rounded to the nearest integer, an exact half going to the larger magnitude. -/
def roundHalfAway (num : Int) (den : Nat) : Int :=
  if 0 ≤ num then (roundHalfUp num.toNat den : Int) else -(roundHalfUp (-num).toNat den : Int)

/-- The length of a gate of `g` microseconds, 400 × g cycles (R76, R108). -/
def gateCycles (g : Nat) : Coarse := BitVec.ofNat 54 (400 * g)

/-- A timeout of 2^e ms, in cycles (R76, R94). -/
def timeoutCycles (e : Nat) : Coarse := BitVec.ofNat 54 (2 ^ e * 400000)

/-- A coarse instant as a timestamp: the instant × 1024 (R120). -/
def instantTime (c : Coarse) : Time := BitVec.ofNat 64 (c.toNat * 1024)

/-- The objects of `all` in the order in which an event is taken by them: those listed in `first`, each
once, then the rest in the order of `all`. -/
def takingOrder {α : Type} [DecidableEq α] (first all : List α) : List α :=
  (first.filter (fun a => all.contains a)).eraseDups ++ all.filter (fun a => !first.contains a)

/-- The four channels, in increasing number. -/
def allChans : List Chan := [0, 1, 2, 3]

/-- The eight descriptors or slots, in increasing number. -/
def allEight : List (Fin 8) := [0, 1, 2, 3, 4, 5, 6, 7]

end Sys2Proof.Machine
end

