-- ==== Sys2Proof/Machine/CalTable.lean ====
section
/-! DEFINITION. Calibration tables: the default table, the checks on a complete histogram and the table built from an accepted one (R59, R65, R66). -/

namespace Sys2Proof.Machine

/-- An entry of the default table: 8b + 4 below bin 128, 1023 from there on (R59). -/
def defaultEntry (b : Nat) : Nat := if b < 128 then 8 * b + 4 else 1023

/-- A table or histogram of 160 entries from a function of the raw bin. -/
def binVector (f : Nat → Nat) : Vector Nat 160 :=
  Vector.mk (Array.mk ((List.range 160).map f)) (by simp)

/-- The default table (R59). -/
def defaultTable : Vector Nat 160 := binVector defaultEntry

/-- A histogram with no hit (R61). -/
def emptyHistogram : Vector Nat 160 := binVector (fun _ => 0)

/-- C(b − 1): the hits in the bins before `b` (R66). -/
def hitsBefore (h : Vector Nat 160) (b : Nat) : Nat := (h.toList.take b).sum

/-- The count of raw bin `b`, as h(b) (R65). -/
def hitsAt (h : Vector Nat 160) (b : Nat) : Nat := h.toList.getD b 0

/-- The entry of raw bin `b` in the table built from histogram `h` with span `span` (R66). -/
def builtEntry (h : Vector Nat 160) (span b : Nat) : Nat :=
  if b < span then
    min 1023 (roundHalfUp (2048 * hitsBefore h b + 1024 * hitsAt h b) 131072)
  else 1023

/-- The table built from an accepted histogram (R66). -/
def builtTable (h : Vector Nat 160) (span : Nat) : Vector Nat 160 := binVector (builtEntry h span)

/-- The last bin collected a hit: part of the cycle lies beyond the line (R65, check 1). -/
def lineIsShort (h : Vector Nat 160) : Bool := decide (0 < hitsAt h 159)

/-- Some bin holds more than four times the mean of an occupied bin (R65, check 3). -/
def hasWideBin (h : Vector Nat 160) (span : Nat) : Bool :=
  h.toList.any (fun x => decide (262144 < x * span))

end Sys2Proof.Machine
end

