-- ==== Sys2Proof/Machine/State.lean ====
section
/-! DEFINITION. The state of the TS-4 as plain data: every register, queue, FIFO, table, counter and mode that the reference gives a block, and the queue of commands and events that wait to be taken. -/

namespace Sys2Proof.Machine

/-! ## Why a step stops -/

/-- Reasons for a fault. The reference gives every row of the table an effect in every state, and no operation
of this block stops the part, so there is none: nothing raises a fault (safe). -/
inductive Fault where
  deriving DecidableEq, Repr

/-- Reasons for a refusal. -/
inductive Refusal where
  /-- Raised by `exec` for a row that has no meaning yet: safe, the model claims nothing of it. No arm of this model does. -/
  | notModelled (mnemonic : String)
  deriving DecidableEq, Repr

/-! ## Timebase (Section 1) -/

/-- A reference source. The selected source is EXT or INT; the source in force may also be NONE (R1, R5). -/
inductive Source where
  | none | ext | int
  deriving DecidableEq, Repr

inductive RefFreq where
  | mhz10 | mhz20
  deriving DecidableEq, Repr

inductive LossAction where
  | switch | halt
  deriving DecidableEq, Repr

inductive TbState where
  | halt | acquire | run | relock
  deriving DecidableEq, Repr

inductive Monitor where
  | absent | present | good
  deriving DecidableEq, Repr

inductive TbCause where
  | none | start | acquired | stop | select | loss | revert | relocked
  deriving DecidableEq, Repr

/-- The timebase unit (R1, R3, R4, R5, R6). -/
structure Timebase where
  selected : Source
  refFreq : RefFreq
  lossDetect : Bool
  lossAction : LossAction
  autoRevert : Bool
  monitor : Monitor
  /-- Consecutive good windows, 0 to 100 (R4). -/
  runCount : Nat
  /-- Divided edges counted in the window in progress (R3). -/
  windowCount : Nat
  /-- At ÷2, one edge of REF_IN has entered the divider since the last divided edge (R1, R3). Its phase at reset, and that
TB CONFIG and a new window leave it, are the model's choice (notes/assumptions/22.md). -/
  dividerHalf : Bool
  /-- A starvation was detected during the window in progress (R3). -/
  windowStarved : Bool
  state : TbState
  inForce : Source
  holdover : Bool
  /-- Idle, or the internal-oscillator cycles it was started with; its expiry is an event (R5). -/
  phaseTimer : Option Nat
  changeCount : BitVec 16
  lastCause : TbCause
  /-- The coarse counter (R6). -/
  coarse : Coarse
  /-- A core clock tick has advanced the coarse counter since it was last set to 0: the first tick of RUN, with count 1,
  has come, so that a closing tick at the present count can lie in RUN (R6, R21). -/
  ticked : Bool
  deriving DecidableEq, Repr

/-- The timebase after power-on and RESTART FULL (R20). -/
def Timebase.reset : Timebase :=
  { selected := .int, refFreq := .mhz10, lossDetect := true, lossAction := .switch, autoRevert := false,
    monitor := .absent, runCount := 0, windowCount := 0, dividerHalf := false, windowStarved := false, state := .halt,
    inForce := .none, holdover := false, phaseTimer := none, changeCount := 0, lastCause := .none,
    coarse := 0, ticked := false }

/-! ## Inputs and channels (Sections 2, 3 and 4) -/

/-- The levels of the five physical inputs, true for high (R21). -/
structure Levels where
  in1 : Bool
  in2 : Bool
  in3 : Bool
  in4 : Bool
  aux : Bool
  deriving DecidableEq, Repr

inductive AuxRole where
  | arm | gate | inhibit | signal
  deriving DecidableEq, Repr

/-- The AUX settings (R22). -/
structure Aux where
  role : AuxRole
  activeHigh : Bool
  deriving DecidableEq, Repr

inductive Polarity where
  | rise | fall | both
  deriving DecidableEq, Repr

inductive ChanState where
  | online | parked | calibrating
  deriving DecidableEq, Repr

/-- The settings of a channel (R26); a binding of none is NONE. -/
structure Settings where
  binding : Option PhysIn
  polarity : Polarity
  holdoff : BitVec 16
  prescale : Nat
  skew : BitVec 16
  inhibitObey : Bool
  deriving DecidableEq, Repr

inductive CalOutcome where
  | none | inProgress | success | lineShort | span | binWidth | osc | timebase | restart
  deriving DecidableEq, Repr

/-- The last-attempt record of a channel (R57). -/
structure Attempt where
  number : BitVec 16
  outcome : CalOutcome
  spanFound : Nat
  hits : Nat
  deriving DecidableEq, Repr

/-- One channel: its settings and count (R26, R32), its interpolator (R40) and its calibration (R57). -/
structure Channel where
  set : Settings
  streamEnable : Bool
  /-- The edge count n (R32). -/
  n : Count
  /-- Idle, or running with an end instant (R30). -/
  holdoffEnd : Option Coarse
  /-- Idle, or running with an end instant (R42). -/
  deadEnd : Option Coarse
  lastBin : Option Bin
  outOfSpan : Nat
  table : Vector Nat 160
  /-- Table status: true for CALIBRATED, false for DEFAULT. -/
  calibrated : Bool
  span : Nat
  histogram : Vector Nat 160
  adviceArmed : Bool
  attempt : Attempt
  deriving DecidableEq, Repr

/-- The input that channel `c` is bound to after power-on and RESTART FULL (R26). -/
def homeInput (c : Chan) : PhysIn :=
  if c = 0 then .in1 else if c = 1 then .in2 else if c = 2 then .in3 else .in4

/-- The settings of channel `c` after power-on and RESTART FULL (R26). -/
def Settings.reset (c : Chan) : Settings :=
  { binding := some (homeInput c), polarity := .rise, holdoff := 0, prescale := 0, skew := 0,
    inhibitObey := false }

/-- A channel after power-on (R39, R56, R59, R75). -/
def Channel.reset (c : Chan) : Channel :=
  { set := Settings.reset c, streamEnable := false, n := 0, holdoffEnd := none, deadEnd := none,
    lastBin := none, outOfSpan := 0, table := defaultTable, calibrated := false, span := 128,
    histogram := emptyHistogram, adviceArmed := false,
    attempt := { number := 0, outcome := .none, spanFound := 0, hits := 0 } }

/-- The calibration in progress (R58). Its hits so far are the hits of the channel's last attempt. -/
structure CalRun where
  chan : Chan
  deadline : Coarse
  deriving DecidableEq, Repr

/-! ## Stamps and samples (Sections 3 and 6) -/

/-- The quality flags a stamp can carry (R49). -/
structure QFlags where
  uncal : Bool
  holdover : Bool
  unsettled : Bool
  deriving DecidableEq, Repr

/-- A stamped event (R48), with the coarse count of its closing tick, by which the engine judges it (R82). -/
structure Stamp where
  chan : Chan
  n : Count
  t : Time
  flags : QFlags
  coarse : Coarse
  deriving DecidableEq, Repr

/-- The counts of the four channels at a coarse instant (R34): edges at the instant's own tick that are
processed later are still added. -/
structure Sample where
  instant : Coarse
  counts : Vector Count 4
  deriving DecidableEq, Repr

/-! ## Gate descriptors (Section 5) -/

inductive Fn where
  | none | freq | period | interval | totalize | ratio
  deriving DecidableEq, Repr

/-- The gate mode with its length: G in µs or N in edges (R76). -/
inductive GateMode where
  | none | time (g : Nat) | count (n : Nat) | aux
  deriving DecidableEq, Repr

inductive ArmSource where
  | immediate | aux | chain (src : Desc)
  deriving DecidableEq, Repr

/-- A copy of a gate descriptor (R76). -/
structure GateCopy where
  fn : Fn
  primary : Option Chan
  secondary : Option Chan
  mode : GateMode
  arm : ArmSource
  continuous : Bool
  /-- The exponent of the timeout, or none for OFF. -/
  timeout : Option Nat
  slot : SlotId
  deriving DecidableEq, Repr

/-- The empty descriptor (R76). -/
def GateCopy.empty : GateCopy :=
  { fn := .none, primary := none, secondary := none, mode := .none, arm := .immediate,
    continuous := false, timeout := none, slot := 0 }

inductive DState where
  | off | waitArm | armed | gateOpen | closing
  deriving DecidableEq, Repr

inductive Completion where
  | normal | stopped | short | noClose
  deriving DecidableEq, Repr

inductive GateReason where
  | none | noSignal | timebase
  deriving DecidableEq, Repr

/-- The gate context (R82). The opening is a stamp, or, for TOTALIZE, the instant of the opening sample. -/
structure GateCtx where
  openStamp : Option Stamp
  /-- The counts at the opening instant. -/
  opening : Sample
  cEnd : Option Coarse
  /-- The last primary stamp since the opening, with the counts at its coarse count (R105). -/
  last : Option (Stamp × Sample)
  flags : QFlags
  endReached : Bool
  deriving DecidableEq, Repr

/-- A close event whose record waits for a count (R92): its completion, its closing stamp if it has one, and
the counts at its instant. -/
structure CloseEvent where
  completion : Completion
  stamp : Option Stamp
  sample : Sample
  deriving DecidableEq, Repr

/-- What a descriptor takes from outside the engine: a stamp or an AUX event (R89). -/
inductive MenEvent where
  | stamp (st : Stamp) | auxArm | auxOpen | auxClose
  deriving DecidableEq, Repr

/-- A gate descriptor (R76, R77, R92). -/
structure Descriptor where
  staged : GateCopy
  active : GateCopy
  state : DState
  commitPending : Bool
  lastGate : Bool
  gateNumber : BitVec 32
  ctx : Option GateCtx
  timeoutAt : Option Coarse
  noticeCount : BitVec 16
  lastReason : GateReason
  /-- The close event taken whose record is not yet formed (R92). -/
  closeEvent : Option CloseEvent
  /-- The stamps and AUX events taken since that close event, in order (R92). -/
  deferred : List (MenEvent × Sample)
  deriving DecidableEq, Repr

/-- A descriptor's running state after every kind of reset, with given copies (R103). -/
def Descriptor.idle (staged active : GateCopy) : Descriptor :=
  { staged := staged, active := active, state := .off, commitPending := false, lastGate := false,
    gateNumber := 0, ctx := none, timeoutAt := none, noticeCount := 0, lastReason := .none,
    closeEvent := none, deferred := [] }

/-- A descriptor after power-on and RESTART FULL (R103). -/
def Descriptor.reset : Descriptor := Descriptor.idle GateCopy.empty GateCopy.empty

/-! ## Records and slots (Sections 6 and 7) -/

/-- A result record (R121). The value is an exact integer; none for NO_CLOSE. -/
structure Record where
  desc : Desc
  gateNumber : BitVec 32
  fn : Fn
  completion : Completion
  flags : QFlags
  overrange : Bool
  tOpen : Time
  tClose : Time
  nOpen : Count
  nClose : Count
  secondaryDelta : Option Count
  value : Option Int
  deriving DecidableEq, Repr

/-- The statistics of a slot (R129). -/
structure Stats where
  fn : Fn
  count : Nat
  minimum : Option Int
  maximum : Option Int
  sum : Int
  deriving DecidableEq, Repr

/-- Empty statistics (R133). -/
def Stats.empty : Stats := { fn := .none, count := 0, minimum := none, maximum := none, sum := 0 }

/-- A result slot (R123). -/
structure Slot where
  published : Option Record
  waiting : Option Record
  held : Bool
  lost : Bool
  publishCount : BitVec 16
  stats : Stats
  deriving DecidableEq, Repr

/-- A slot after every kind of reset (R137). -/
def Slot.reset : Slot :=
  { published := none, waiting := none, held := false, lost := false, publishCount := 0,
    stats := Stats.empty }

/-! ## Stream unit (Section 8) -/

/-- An entry of the stream FIFO (R140). -/
inductive Entry where
  | stamp (c : Chan) (n : Count) (t : Time) (flags : QFlags)
  | gap (c : Chan) (count : Nat)
  deriving DecidableEq, Repr

/-- The stream unit (R138). -/
structure StreamUnit where
  fifo : List Entry
  drops : Vector Nat 4
  frameNumber : BitVec 16
  deriving DecidableEq, Repr

/-- The stream unit after every kind of reset (R151). -/
def StreamUnit.reset : StreamUnit :=
  { fifo := [], drops := Vector.replicate 4 0, frameNumber := 0 }

/-! ## Link controller (Section 9) -/

/-- A notice's kind with its object (R161). -/
inductive NoticeKey where
  | result (s : SlotId) | gate (g : Desc) | timebase | cal (c : Chan) | advise (c : Chan)
  deriving DecidableEq, Repr

/-- An entry of the notice queue (R161). -/
structure Notice where
  key : NoticeKey
  postings : Nat
  deriving DecidableEq, Repr

/-- The notice mask: an enable for each kind and the notify set (R163). -/
structure Mask where
  result : Bool
  gate : Bool
  timebase : Bool
  cal : Bool
  advise : Bool
  slots : BitVec 8
  deriving DecidableEq, Repr

/-- All kinds enabled, all slots notified (R163). -/
def Mask.all : Mask :=
  { result := true, gate := true, timebase := true, cal := true, advise := true, slots := 0xFF }

inductive RestartKind where
  | measure | full
  deriving DecidableEq, Repr

/-- NAK codes (R160). -/
inductive Nak where
  | unknown | length | range | busy | invalid | noRef | noTimebase
  deriving DecidableEq, Repr

/-- A formed reply (R159, R174); `restart` marks the ACK of a RESTART command (R164). -/
structure Reply where
  code : Byte
  nak : Option Nak
  field : Byte
  number : BitVec 16
  data : List Byte
  restart : Option RestartKind
  deriving DecidableEq, Repr

/-- The frame on LNK_TX (R164, R173); `restart` marks the ACK of a RESTART whose end makes it take effect. -/
structure TxFrame where
  kind : Byte
  payload : List Byte
  restart : Option RestartKind
  deriving DecidableEq, Repr

/-- A byte of the receive buffer; `late` marks one that came more than 200 µs after the byte before it (R156). -/
structure RxByte where
  val : Byte
  late : Bool
  deriving DecidableEq, Repr

/-- Where the receiver stands on LNK_RX: looking for a start bit; in a byte, with the samples taken since its start
bit; waiting for mark, after a byte whose stop bit was at space or after LNKCLK returned (R153); waiting for mark after
a link break (R157). -/
inductive RxLine where
  | looking | awaitMark | broken
  | inByte (samples : List Bool)
  deriving DecidableEq, Repr

/-- The link controller (R153 to R166). The receiver hunts when its buffer is empty and collects otherwise:
the buffer then begins with the candidate's SYNC byte (R154). -/
structure Link where
  rxLine : RxLine
  rxBuffer : List RxByte
  /-- 200 µs have passed since the last byte received; the next one is late (R156). -/
  rxGap : Bool
  commandQueue : List (List Byte)
  replyQueue : List Reply
  noticeQueue : List Notice
  mask : Mask
  crcErrors : Nat
  lengthErrors : Nat
  truncated : Nat
  overruns : Nat
  number : BitVec 16
  tx : Option TxFrame
  /-- A RESTART executed and not yet in effect (R170). -/
  restart : Option RestartKind
  deriving DecidableEq, Repr

/-- The link controller after power-on (R166). That the receiver takes LNK_RX to have been at mark before its first
sample, so that a space there begins a byte, is the model's choice (notes/assumptions/1.md), but for an LNKCLK that
returns before the end of start-up (notes/assumptions/32.md). -/
def Link.reset : Link :=
  { rxLine := .looking, rxBuffer := [], rxGap := false, commandQueue := [], replyQueue := [],
    noticeQueue := [], mask := Mask.all, crcErrors := 0, lengthErrors := 0, truncated := 0, overruns := 0,
    number := 0, tx := none, restart := none }

/-! ## The whole part -/

/-- Where the part stands in a power-on reset (R171): RST_N held low, in the start-up interval, or operating. -/
inductive Power where
  | held | startUp | ready
  deriving DecidableEq, Repr

/-- The reset-cause record (R167). -/
structure Causes where
  power : Bool
  full : Bool
  brk : Bool
  measure : Bool
  deriving DecidableEq, Repr

structure State where
  power : Power
  /-- LNKCLK is running (R153). -/
  lnkclk : Bool
  levels : Levels
  aux : Aux
  tb : Timebase
  chans : Vector Channel 4
  /-- The calibration in progress; the oscillator runs exactly while there is one (R58). -/
  cal : Option CalRun
  descs : Vector Descriptor 8
  slots : Vector Slot 8
  stream : StreamUnit
  link : Link
  causes : Causes
  /-- The commands and events that wait to be taken, first in, first out. -/
  pending : List Instr
  deriving DecidableEq, Repr

/-- The four channels after power-on (R39, R56, R75). -/
def resetChans : Vector Channel 4 :=
  #v[Channel.reset 0, Channel.reset 1, Channel.reset 2, Channel.reset 3]

/-- The part right after a power-on reset, its start-up interval over (R171): every block at its power-on
values and the reset-cause record {POWER}. The levels of the inputs and LNKCLK are pins: low, and running,
by choice of the model (notes/assumptions/1.md). -/
def State.reset : State :=
  { power := .ready, lnkclk := true,
    levels := { in1 := false, in2 := false, in3 := false, in4 := false, aux := false },
    aux := { role := .arm, activeHigh := true }, tb := Timebase.reset, chans := resetChans, cal := none,
    descs := Vector.replicate 8 Descriptor.reset, slots := Vector.replicate 8 Slot.reset,
    stream := StreamUnit.reset, link := Link.reset,
    causes := { power := true, full := false, brk := false, measure := false }, pending := [] }

end Sys2Proof.Machine
end

