-- ==== Sys2Proof/Machine/Flags.lean ====
section
/-! DEFINITION. The quality flags: their union, their sources and the flags byte (R49, R106, R172). -/

namespace Sys2Proof.Machine

/-- No flag. -/
def QFlags.clear : QFlags := { uncal := false, holdover := false, unsettled := false }

/-- The union of two sets of flags (R106). -/
def QFlags.union (a b : QFlags) : QFlags :=
  { uncal := a.uncal || b.uncal, holdover := a.holdover || b.holdover,
    unsettled := a.unsettled || b.unsettled }

/-- The flags the timebase gives a gate: UNSETTLED in RELOCK, HOLDOVER in holdover (R106). -/
def Timebase.gateFlags (tb : Timebase) : QFlags :=
  { uncal := false, holdover := tb.holdover, unsettled := decide (tb.state = .relock) }

/-- The flags of a stamp: UNCAL on the default table, HOLDOVER and UNSETTLED from the timebase (R49). -/
def stampFlags (tb : Timebase) (calibrated : Bool) : QFlags :=
  { uncal := !calibrated, holdover := tb.holdover, unsettled := decide (tb.state = .relock) }

/-- The flags byte: bit 0 UNCAL, bit 1 HOLDOVER, bit 2 UNSETTLED, bit 3 OVERRANGE (R172). -/
def QFlags.byte (f : QFlags) (overrange : Bool) : Byte :=
  (if f.uncal then 1 else 0) + (if f.holdover then 2 else 0) + (if f.unsettled then 4 else 0)
    + (if overrange then 8 else 0)

end Sys2Proof.Machine
end

