-- ==== Sys2Proof/Machine/Operands.lean ====
section
/-! DEFINITION. The forms in which a field stands in a payload: little-endian numbers, enumerations, flags and sets, in both directions (R172). -/

namespace Sys2Proof.Machine

/-! ## Numbers and flags -/

/-- The `k` bytes of `v`, little-endian (R172). -/
def leBytes : Nat → Nat → List Byte
  | 0, _ => []
  | k + 1, v => BitVec.ofNat 8 v :: leBytes k (v / 256)

/-- The number that bytes spell, little-endian (R172). -/
def leValue : List Byte → Nat
  | [] => 0
  | b :: rest => b.toNat + 256 * leValue rest

/-- A signed value as eight bytes of two's complement (R172). -/
def leSigned (v : Int) : List Byte := leBytes 8 (v % 2 ^ 64).toNat

/-- A flag byte (R172). -/
def flagByte (b : Bool) : Byte := if b then 1 else 0

/-- The flag a byte spells; none for a value above 1 (R172). -/
def readFlag (b : Byte) : Option Bool :=
  if b = 0 then some false else if b = 1 then some true else none

/-- A set of slots as two bytes: bit s stands for slot s (R172). -/
def slotSetBytes (set : BitVec 8) : List Byte := [set, 0]

/-- The slots for which `p` holds, as a set. -/
def slotSet (p : SlotId → Bool) : BitVec 8 :=
  allEight.foldl (fun acc k => if p k then acc ||| (1 <<< k.val) else acc) 0

/-- The channels for which `p` holds, as a channel-set byte: bit c − 1 stands for channel c (R172). -/
def chanSetByte (p : Chan → Bool) : Byte :=
  allChans.foldl (fun acc k => if p k then acc ||| (1 <<< k.val) else acc) 0

/-! ## Object numbers -/

/-- The channel byte of channel `c`, 1 to 4. -/
def chanByte (c : Chan) : Byte := BitVec.ofNat 8 (c.val + 1)

/-- The channel that a byte names, 1 to 4 (R172). -/
def readChan (b : Byte) : Option Chan :=
  if b = 1 then some 0 else if b = 2 then some 1 else if b = 3 then some 2
  else if b = 4 then some 3 else none

/-- The descriptor or slot that a byte names, 0 to 7 (R172). -/
def readEight (b : Byte) : Option (Fin 8) :=
  if h : b.toNat < 8 then some ⟨b.toNat, h⟩ else none

/-- A descriptor or slot number as a byte. -/
def eightByte (k : Fin 8) : Byte := BitVec.ofNat 8 k.val

/-! ## Enumerations (R172) -/

def Source.code : Source → Byte
  | .none => 0 | .ext => 1 | .int => 2

/-- EXT or INT; no other value is a selected source (R1). -/
def readSource (b : Byte) : Option Source :=
  if b = 1 then some .ext else if b = 2 then some .int else none

def RefFreq.code : RefFreq → Byte
  | .mhz10 => 1 | .mhz20 => 2

def readRefFreq (b : Byte) : Option RefFreq :=
  if b = 1 then some .mhz10 else if b = 2 then some .mhz20 else none

def LossAction.code : LossAction → Byte
  | .switch => 1 | .halt => 2

def readLossAction (b : Byte) : Option LossAction :=
  if b = 1 then some .switch else if b = 2 then some .halt else none

def TbState.code : TbState → Byte
  | .halt => 0 | .acquire => 1 | .run => 2 | .relock => 3

def Monitor.code : Monitor → Byte
  | .absent => 0 | .present => 1 | .good => 2

def TbCause.code : TbCause → Byte
  | .none => 0 | .start => 1 | .acquired => 2 | .stop => 3 | .select => 4 | .loss => 5
  | .revert => 6 | .relocked => 7

def AuxRole.code : AuxRole → Byte
  | .arm => 1 | .gate => 2 | .inhibit => 3 | .signal => 4

def readAuxRole (b : Byte) : Option AuxRole :=
  if b = 1 then some .arm else if b = 2 then some .gate else if b = 3 then some .inhibit
  else if b = 4 then some .signal else none

/-- The AUX polarity: 1 HIGH, 2 LOW. -/
def auxPolarityCode (activeHigh : Bool) : Byte := if activeHigh then 1 else 2

def readAuxPolarity (b : Byte) : Option Bool :=
  if b = 1 then some true else if b = 2 then some false else none

/-- A binding: 0 NONE, 1 to 4 IN1 to IN4, 5 AUX. -/
def bindingCode : Option PhysIn → Byte
  | none => 0 | some .in1 => 1 | some .in2 => 2 | some .in3 => 3 | some .in4 => 4 | some .aux => 5

def readBinding (b : Byte) : Option (Option PhysIn) :=
  if b = 0 then some none else if b = 1 then some (some .in1) else if b = 2 then some (some .in2)
  else if b = 3 then some (some .in3) else if b = 4 then some (some .in4)
  else if b = 5 then some (some .aux) else none

def Polarity.code : Polarity → Byte
  | .rise => 1 | .fall => 2 | .both => 3

def readPolarity (b : Byte) : Option Polarity :=
  if b = 1 then some .rise else if b = 2 then some .fall else if b = 3 then some .both else none

def ChanState.code : ChanState → Byte
  | .online => 0 | .parked => 1 | .calibrating => 2

def CalOutcome.code : CalOutcome → Byte
  | .none => 0 | .inProgress => 1 | .success => 2 | .lineShort => 3 | .span => 4 | .binWidth => 5
  | .osc => 6 | .timebase => 7 | .restart => 8

def Fn.code : Fn → Byte
  | .none => 0 | .freq => 1 | .period => 2 | .interval => 3 | .totalize => 4 | .ratio => 5

def readFn (b : Byte) : Option Fn :=
  if b = 0 then some .none else if b = 1 then some .freq else if b = 2 then some .period
  else if b = 3 then some .interval else if b = 4 then some .totalize
  else if b = 5 then some .ratio else none

/-- The kind of a gate mode, without its length: 0 NONE, 1 TIME, 2 COUNT, 3 AUX. -/
def GateMode.kind : GateMode → Byte
  | .none => 0 | .time _ => 1 | .count _ => 2 | .aux => 3

/-- The length a gate mode carries; 0 for AUX and NONE (R78). -/
def GateMode.length : GateMode → Nat
  | .time g => g | .count n => n | .aux => 0 | .none => 0

def ArmSource.kind : ArmSource → Byte
  | .immediate => 0 | .aux => 1 | .chain _ => 2

/-- The chain source byte; 0 for every source but CHAIN (R176). -/
def ArmSource.chainByte : ArmSource → Byte
  | .chain g => eightByte g | .immediate => 0 | .aux => 0

def DState.code : DState → Byte
  | .off => 0 | .waitArm => 1 | .armed => 2 | .gateOpen => 3 | .closing => 4

def GateReason.code : GateReason → Byte
  | .none => 0 | .noSignal => 1 | .timebase => 2

def Completion.code : Completion → Byte
  | .normal => 0 | .stopped => 1 | .short => 2 | .noClose => 3

def RestartKind.code : RestartKind → Byte
  | .measure => 1 | .full => 2

def readRestartKind (b : Byte) : Option RestartKind :=
  if b = 1 then some .measure else if b = 2 then some .full else none

/-- The NAK code byte; 0 for ACK (R174). -/
def nakCode : Option Nak → Byte
  | none => 0 | some .unknown => 1 | some .length => 2 | some .range => 3 | some .busy => 4
  | some .invalid => 5 | some .noRef => 6 | some .noTimebase => 7

/-- A last raw bin byte; FFh for none (R172). -/
def lastBinByte : Option Bin → Byte
  | none => 0xFF | some b => BitVec.ofNat 8 b.val

/-- The set of reset causes: bit 0 POWER, bit 1 FULL, bit 2 BREAK, bit 3 MEASURE (R172). -/
def Causes.byte (c : Causes) : Byte :=
  (if c.power then 1 else 0) + (if c.full then 2 else 0) + (if c.brk then 4 else 0)
    + (if c.measure then 8 else 0)

/-- The kind-enables byte: bits 0 to 4 enable RESULT, GATE, TIMEBASE, CAL and ADVISE (R173). -/
def Mask.kindByte (m : Mask) : Byte :=
  (if m.result then 1 else 0) + (if m.gate then 2 else 0) + (if m.timebase then 4 else 0)
    + (if m.cal then 8 else 0) + (if m.advise then 16 else 0)

/-- The mask that a kind-enables byte and a set of slots give; bits 5 to 7 of the byte are ignored (R172, R173). -/
def readMask (kinds : Byte) (slots : BitVec 8) : Mask :=
  { result := kinds.getLsbD 0, gate := kinds.getLsbD 1, timebase := kinds.getLsbD 2,
    cal := kinds.getLsbD 3, advise := kinds.getLsbD 4, slots := slots }

/-! ## Descriptor copies (R176) -/

/-- The primary or secondary channel byte; 0 for none (R76, R172). -/
def optChanByte : Option Chan → Byte
  | none => 0 | some c => chanByte c

/-- The timeout byte; FFh for OFF (R176). -/
def timeoutByte : Option Nat → Byte
  | none => 0xFF | some e => BitVec.ofNat 8 e

/-- A descriptor copy as its 20 bytes (R176). -/
def GateCopy.bytes (c : GateCopy) : List Byte :=
  [c.fn.code, optChanByte c.primary, optChanByte c.secondary, c.mode.kind] ++ leBytes 8 c.mode.length
    ++ [c.arm.kind, c.arm.chainByte, flagByte c.continuous, timeoutByte c.timeout, eightByte c.slot, 0, 0, 0]

/-- `v` clamped into `low` to `high` (R78). -/
def clamp (low high v : Nat) : Nat := if v < low then low else if high < v then high else v

/-- The gate mode that a kind byte and a length give, the length clamped (R78). -/
def readMode (kind : Byte) (len : Nat) : Option GateMode :=
  if kind = 0 then some .none
  else if kind = 1 then some (.time (clamp 1 100000000 len))
  else if kind = 2 then some (.count (clamp 1 (2 ^ 40 - 1) len))
  else if kind = 3 then some .aux else none

/-- The timeout that a byte gives, clamped (R78, R176). -/
def readTimeout (b : Byte) : Option Nat :=
  if b = 0xFF then none else some (min b.toNat 15)

/-- The secondary channel that a byte gives for a function, or the refusal of the field (R78, R176). -/
def readSecondary (fn : Fn) (b : Byte) : Option (Option Chan) :=
  if fn = .interval ∨ fn = .ratio then
    if b = 0 then some none else (readChan b).map some
  else some none

/-- The arm source that a kind byte and a chain source byte give; an error is the offset, within the copy, of
the field refused (R78, R176). -/
def readArm (kind src : Byte) : Except Nat ArmSource :=
  if kind = 0 then .ok .immediate
  else if kind = 1 then .ok .aux
  else if kind = 2 then
    match readEight src with
    | some g => .ok (.chain g)
    | none => .error 13
  else .error 12

/-- The staged copy that GATE WRITE's copy bytes give, or the offset within the copy of the first field
refused, the fields being checked in the order of R76 (R78, R176). -/
def readCopy (fnB primB secB kindB : Byte) (len : List Byte) (armB srcB repB toB slotB : Byte) :
    Except Nat GateCopy :=
  match readFn fnB with
  | none => .error 0
  | some .none => .ok GateCopy.empty
  | some fn =>
    match readChan primB, readSecondary fn secB, readMode kindB (leValue len), readArm armB srcB,
      readFlag repB, readEight slotB with
    | none, _, _, _, _, _ => .error 1
    | some _, none, _, _, _, _ => .error 2
    | some _, some _, none, _, _, _ => .error 3
    | some _, some _, some _, .error k, _, _ => .error k
    | some _, some _, some _, .ok _, none, _ => .error 14
    | some _, some _, some _, .ok _, some _, none => .error 16
    | some p, some s, some m, .ok a, some r, some k =>
      .ok { fn := fn, primary := some p, secondary := s, mode := m, arm := a, continuous := r,
            timeout := readTimeout toB, slot := k }

end Sys2Proof.Machine
end

