-- ==== Sys2Proof/Machine/Ops.lean ====
section
/-! DEFINITION. The named operations over the state that every family of commands shares: accessors, the coarse counter, channel states, samples of the counts and the posting of notices. -/

namespace Sys2Proof.Machine

/-! ## Accessors -/

def State.chan (s : State) (c : Chan) : Channel := s.chans[c]

def State.desc (s : State) (g : Desc) : Descriptor := s.descs[g]

def State.slot (s : State) (k : SlotId) : Slot := s.slots[k]

def State.modTb (s : State) (f : Timebase → Timebase) : State := { s with tb := f s.tb }

def State.modLink (s : State) (f : Link → Link) : State := { s with link := f s.link }

def State.modStream (s : State) (f : StreamUnit → StreamUnit) : State := { s with stream := f s.stream }

def State.modChan (s : State) (c : Chan) (f : Channel → Channel) : State :=
  { s with chans := s.chans.set c.val (f (s.chan c)) c.isLt }

def State.modDesc (s : State) (g : Desc) (f : Descriptor → Descriptor) : State :=
  { s with descs := s.descs.set g.val (f (s.desc g)) g.isLt }

def State.modSlot (s : State) (k : SlotId) (f : Slot → Slot) : State :=
  { s with slots := s.slots.set k.val (f (s.slot k)) k.isLt }

/-- `f` for each of the four channels, in increasing number. -/
def State.forChans (s : State) (f : Chan → State → State) : State :=
  allChans.foldl (fun u c => f c u) s

/-- `f` for each of the eight descriptors or slots, in increasing number. -/
def State.forEight (s : State) (f : Fin 8 → State → State) : State :=
  allEight.foldl (fun u g => f g u) s

/-! ## The coarse counter (R6, R7) -/

/-- The timebase is in RUN or RELOCK: the coarse counter advances, edges are processed and instants expire. -/
def Timebase.counting (tb : Timebase) : Bool :=
  match tb.state with
  | .run => true | .relock => true | .halt => false | .acquire => false

/-- The timebase with the coarse counter moved on to count `x`; at the present count no tick passes (R6). -/
def Timebase.movedTo (tb : Timebase) (x : Coarse) : Timebase :=
  { tb with coarse := x, ticked := tb.ticked || decide (x ≠ tb.coarse) }

/-- The part with the coarse counter moved on to count `x`. -/
def State.atCount (s : State) (x : Coarse) : State := s.modTb (fun tb => tb.movedTo x)

/-- A closing tick with count `x` falls in RUN or RELOCK: it is still to come, or it is the present tick, which the count
at the entry into RUN is not (R6, R21). -/
def Timebase.closesAt (tb : Timebase) (x : Coarse) : Bool := tb.counting && (tb.ticked || decide (x ≠ tb.coarse))

/-! ## Channels (R25, R27) -/

/-- The level of an input, true for high. -/
def Levels.get (l : Levels) : PhysIn → Bool
  | .in1 => l.in1 | .in2 => l.in2 | .in3 => l.in3 | .in4 => l.in4 | .aux => l.aux

/-- The levels after `input` has changed to `high` (R21). -/
def Levels.put (l : Levels) (input : PhysIn) (high : Bool) : Levels :=
  match input with
  | .in1 => { l with in1 := high } | .in2 => { l with in2 := high } | .in3 => { l with in3 := high }
  | .in4 => { l with in4 := high } | .aux => { l with aux := high }

/-- AUX is at its active level (R22, R31). -/
def State.auxActive (s : State) : Bool := s.levels.aux == s.aux.activeHigh

/-- A binding parks its channel: NONE, or AUX outside role SIGNAL (R27). -/
def parks (role : AuxRole) : Option PhysIn → Bool
  | none => true
  | some .aux => decide (role ≠ .signal)
  | some _ => false

/-- The calibration unit holds the channel's interpolator (R27, R29). -/
def State.calibrates (s : State) (c : Chan) : Bool :=
  match s.cal with
  | some r => decide (r.chan = c)
  | none => false

/-- The state of a channel, derived from its binding, the AUX role and the calibration unit (R27). -/
def State.chanState (s : State) (c : Chan) : ChanState :=
  if parks s.aux.role (s.chan c).set.binding then .parked
  else if s.calibrates c then .calibrating else .online

/-- The used channels of a copy (R76). -/
def GateCopy.used (cp : GateCopy) : List Chan :=
  if cp.fn = .none then [] else cp.primary.toList ++ cp.secondary.toList

/-- The descriptor is in ARMED, OPEN or CLOSING. -/
def Descriptor.running (d : Descriptor) : Bool :=
  match d.state with
  | .armed => true | .gateOpen => true | .closing => true | .off => false | .waitArm => false

/-- A gate is in progress: the descriptor is in OPEN or CLOSING. -/
def Descriptor.inGate (d : Descriptor) : Bool :=
  match d.state with
  | .gateOpen => true | .closing => true | .off => false | .waitArm => false | .armed => false

/-- A descriptor in ARMED, OPEN or CLOSING uses the channel (R36, R60). -/
def State.inUse (s : State) (c : Chan) : Bool :=
  allEight.any (fun g => (s.desc g).running && (s.desc g).active.used.contains c)

/-! ## Samples of the counts (R34, R105) -/

/-- The counts of the four channels as they stand, as the sample at instant `x`. -/
def State.sampleAt (s : State) (x : Coarse) : Sample :=
  { instant := x, counts := #v[(s.chan 0).n, (s.chan 1).n, (s.chan 2).n, (s.chan 3).n] }

/-- The sample at the present coarse count. -/
def State.sampleNow (s : State) : Sample := s.sampleAt s.tb.coarse

/-- A sample after channel `c` has counted an edge of coarse count `x`: an edge at the sample's own tick
belongs to it, whichever was taken first (R105). -/
def Sample.note (m : Sample) (c : Chan) (x : Coarse) : Sample :=
  if x = m.instant then { m with counts := m.counts.set c.val (m.counts[c] + 1) c.isLt } else m

/-- Every sample a gate context holds, noted. -/
def GateCtx.note (k : GateCtx) (c : Chan) (x : Coarse) : GateCtx :=
  { k with opening := k.opening.note c x, last := k.last.map (fun p => (p.1, p.2.note c x)) }

/-- Every sample a descriptor holds, noted. -/
def Descriptor.note (d : Descriptor) (c : Chan) (x : Coarse) : Descriptor :=
  { d with
    ctx := d.ctx.map (fun k => k.note c x)
    closeEvent := d.closeEvent.map (fun e => { e with sample := e.sample.note c x })
    deferred := d.deferred.map (fun p => (p.1, p.2.note c x)) }

/-! ## Notices (R161) -/

/-- The mask queues a notice: its kind is enabled and, for RESULT, its slot is in the notify set (R161). -/
def Mask.admits (m : Mask) : NoticeKey → Bool
  | .result k => m.result && m.slots.getLsbD k.val
  | .gate _ => m.gate
  | .timebase => m.timebase
  | .cal _ => m.cal
  | .advise _ => m.advise

/-- The queue after a posting: an entry of the same kind and object keeps its place and counts the posting;
otherwise a new entry joins at the tail (R161). -/
def postInto (key : NoticeKey) : List Notice → List Notice
  | [] => [{ key := key, postings := 1 }]
  | e :: rest =>
    if e.key = key then { e with postings := satInc Config.sat8 e.postings } :: rest
    else e :: postInto key rest

/-- A block posts a notice, and the link controller queues it subject to the mask (R161). -/
def State.post (s : State) (key : NoticeKey) : State :=
  s.modLink (fun l => if l.mask.admits key then { l with noticeQueue := postInto key l.noticeQueue } else l)

/-- A TIMEBASE notice is posted: the change count and the last cause advance, whatever the mask (R18). -/
def State.postTimebase (s : State) (cause : TbCause) : State :=
  (s.modTb (fun tb => { tb with changeCount := tb.changeCount + 1, lastCause := cause })).post .timebase

/-- A GATE notice is posted for descriptor `g` (R102). -/
def State.postGate (s : State) (g : Desc) (reason : GateReason) : State :=
  (s.modDesc g (fun d => { d with noticeCount := d.noticeCount + 1, lastReason := reason })).post (.gate g)

end Sys2Proof.Machine
end

