-- ==== Sys2Proof/Machine/Layout.lean ====
section
/-! DEFINITION. The byte layouts of what the part sends: result records, snapshots, stream entries and the payloads of replies, notices and stream frames (R174, R175, R176). -/

namespace Sys2Proof.Machine

/-- A result record as its 64 bytes; an absent one is 64 zero bytes (R175). -/
def recordBytes : Option Record → List Byte
  | none => List.replicate 64 0
  | some r =>
    [eightByte r.desc, r.fn.code, r.completion.code, r.flags.byte r.overrange,
      (if r.value.isSome then 1 else 0) + (if r.secondaryDelta.isSome then 2 else 0), 0, 0, 0]
    ++ leBytes 4 r.gateNumber.toNat ++ [0, 0, 0, 0]
    ++ leBytes 8 r.tOpen.toNat ++ leBytes 8 r.tClose.toNat
    ++ leBytes 6 r.nOpen.toNat ++ leBytes 6 r.nClose.toNat
    ++ leBytes 6 ((r.secondaryDelta.getD 0).toNat) ++ [0, 0, 0, 0, 0, 0]
    ++ leSigned (r.value.getD 0)

/-- The timebase snapshot, 21 bytes (R19, R174). -/
def Timebase.snapshot (tb : Timebase) : List Byte :=
  [tb.selected.code, tb.refFreq.code, flagByte tb.lossDetect, tb.lossAction.code, flagByte tb.autoRevert,
    tb.state.code, tb.inForce.code, flagByte tb.holdover, tb.monitor.code, BitVec.ofNat 8 tb.runCount]
  ++ leBytes 2 tb.changeCount.toNat ++ [tb.lastCause.code] ++ leBytes 8 tb.coarse.toNat

/-- The channel record of CHANNEL READ and CHANNEL SET, 19 bytes (R38, R174). -/
def State.channelRecord (s : State) (c : Chan) : List Byte :=
  let ch := s.chan c
  [chanByte c, bindingCode ch.set.binding, ch.set.polarity.code] ++ leBytes 2 ch.set.holdoff.toNat
  ++ [BitVec.ofNat 8 ch.set.prescale] ++ leBytes 2 ch.set.skew.toNat
  ++ [flagByte ch.set.inhibitObey, flagByte ch.streamEnable, (s.chanState c).code]
  ++ leBytes 6 ch.n.toNat ++ [s.aux.role.code, auxPolarityCode s.aux.activeHigh]

/-- The states of CH1 to CH4. -/
def State.chanStateBytes (s : State) : List Byte := allChans.map (fun c => (s.chanState c).code)

/-- The last-attempt record's fields: attempt number, outcome, span found, hits (R57). -/
def Attempt.bytes (a : Attempt) : List Byte :=
  leBytes 2 a.number.toNat ++ [a.outcome.code, BitVec.ofNat 8 a.spanFound] ++ leBytes 4 a.hits

/-- The table status byte. -/
def Channel.statusByte (ch : Channel) : Byte := if ch.calibrated then 1 else 0

/-- The data of the TABLE READ reply, 976 bytes (R74, R174). -/
def State.tableData (s : State) (c : Chan) : List Byte :=
  let ch := s.chan c
  [chanByte c, ch.statusByte, BitVec.ofNat 8 ch.span, (s.chanState c).code] ++ ch.attempt.bytes
  ++ [flagByte ch.adviceArmed, lastBinByte ch.lastBin] ++ leBytes 2 ch.outOfSpan
  ++ ch.table.toList.flatMap (leBytes 2) ++ ch.histogram.toList.flatMap (leBytes 4)

/-- The mean of a slot's statistics: the sum over the count, rounded half away from zero; absent at count 0 (R132). -/
def Stats.mean (st : Stats) : Option Int :=
  if st.count = 0 then none else some (roundHalfAway st.sum st.count)

/-- The data of the SLOT READ reply, 100 bytes (R134, R174). -/
def State.slotData (s : State) (k : SlotId) : List Byte :=
  let sl := s.slot k
  [eightByte k, flagByte sl.held, flagByte sl.lost, flagByte sl.waiting.isSome]
  ++ leBytes 2 sl.publishCount.toNat ++ [flagByte sl.published.isSome] ++ recordBytes sl.published
  ++ [sl.stats.fn.code] ++ leBytes 4 sl.stats.count
  ++ leSigned (sl.stats.minimum.getD 0) ++ leSigned (sl.stats.maximum.getD 0)
  ++ leSigned (sl.stats.mean.getD 0)

/-- The set of held slots, of slots holding a pending record, and of slots with lost set. -/
def State.heldSet (s : State) : BitVec 8 := slotSet (fun k => (s.slot k).held)

def State.waitingSet (s : State) : BitVec 8 := slotSet (fun k => (s.slot k).waiting.isSome)

def State.lostSet (s : State) : BitVec 8 := slotSet (fun k => (s.slot k).lost)

/-- The drop counts D_1 to D_4, four bytes each. -/
def StreamUnit.dropBytes (u : StreamUnit) : List Byte := u.drops.toList.flatMap (leBytes 4)

/-- The open stamp's n, or for TOTALIZE the primary count at the open instant (R101, R121). -/
def GateCtx.nOpen (k : GateCtx) (cp : GateCopy) : Count :=
  match k.openStamp, cp.primary with
  | some st, _ => st.n
  | none, some c => k.opening.counts[c]
  | none, none => 0

/-- The open stamp's t, or for TOTALIZE the open instant × 1024 (R101, R120). -/
def GateCtx.tOpen (k : GateCtx) : Time :=
  match k.openStamp with
  | some st => st.t
  | none => instantTime k.opening.instant

/-- The data of the GATE READ reply, 82 bytes (R101, R176). At the tick of a TOTALIZE opening the count reported is the
opening sample as counted so far: the model's choice, since R34 makes the sample available only once the counter has
passed that tick (notes/assumptions/28.md). -/
def Descriptor.readData (d : Descriptor) : List Byte :=
  let cEnd := d.ctx.bind (fun k => k.cEnd)
  d.staged.bytes ++ d.active.bytes
  ++ [d.state.code, flagByte d.commitPending, flagByte d.lastGate, 0] ++ leBytes 4 d.gateNumber.toNat
  ++ [(if d.ctx.isSome then 1 else 0) + (if cEnd.isSome then 2 else 0)
      + (if d.timeoutAt.isSome then 4 else 0)]
  ++ leBytes 6 ((d.ctx.map (fun k => (k.nOpen d.active).toNat)).getD 0)
  ++ leBytes 8 ((d.ctx.map (fun k => k.tOpen.toNat)).getD 0)
  ++ leBytes 8 ((cEnd.map (fun x => x.toNat)).getD 0)
  ++ leBytes 8 ((d.timeoutAt.map (fun x => x.toNat)).getD 0)
  ++ leBytes 2 d.noticeCount.toNat ++ [d.lastReason.code]

/-- The channel under calibration; FFh for none (R172). -/
def State.calByte (s : State) : Byte :=
  match s.cal with
  | none => 0xFF
  | some r => chanByte r.chan

/-- The data of the STATUS reply, 84 bytes (R169, R174). Every block's part is taken at one instant, so an event is in
every part or in none: the model's choice, where R169 lets an event fall between two parts (notes/assumptions/27.md). -/
def State.statusData (s : State) : List Byte :=
  [s.causes.byte] ++ s.tb.snapshot ++ s.chanStateBytes ++ [s.calByte]
  ++ allEight.flatMap (fun g =>
      [(s.desc g).state.code, flagByte (s.desc g).commitPending, flagByte (s.desc g).lastGate])
  ++ slotSetBytes s.heldSet ++ slotSetBytes s.waitingSet ++ slotSetBytes s.lostSet
  ++ leBytes 2 s.stream.fifo.length ++ s.stream.dropBytes
  ++ [BitVec.ofNat 8 s.link.noticeQueue.length]
  ++ leBytes 2 s.link.crcErrors ++ leBytes 2 s.link.lengthErrors ++ leBytes 2 s.link.truncated
  ++ leBytes 2 s.link.overruns

/-- The data of the IDENTIFY reply: part code 0B34h, silicon revision 01h, a reserved byte and the capacities of
R168 in its order (R168, R174). -/
def identifyData : List Byte :=
  leBytes 2 0x0B34 ++ [1, 0] ++ [4, 5, 8, 8] ++ leBytes 2 4096 ++ [32, 160] ++ leBytes 4 65536
  ++ [25, 4, 8] ++ leBytes 2 1040 ++ leBytes 2 1024 ++ leBytes 4 400000000

/-! ## Payloads -/

/-- The payload of a REPLY frame (R174). -/
def Reply.payload (r : Reply) : List Byte :=
  [r.code, flagByte r.nak.isSome, nakCode r.nak, r.field] ++ leBytes 2 r.number.toNat ++ r.data

/-- The kind byte and the object byte of a notice (R174). -/
def NoticeKey.header : NoticeKey → Byte × Byte
  | .result k => (1, eightByte k)
  | .gate g => (2, eightByte g)
  | .timebase => (3, 0)
  | .cal c => (4, chanByte c)
  | .advise c => (5, chanByte c)

/-- The contents of a notice, taken from the owning block when the frame is formed (R162, R174). -/
def State.noticeContents (s : State) : NoticeKey → List Byte
  | .result k =>
    let sl := s.slot k
    leBytes 2 sl.publishCount.toNat
    ++ [(if sl.held then 1 else 0) + (if sl.lost then 2 else 0) + (if sl.waiting.isSome then 4 else 0)
        + (if sl.published.isSome then 8 else 0)]
    ++ leBytes 4 sl.stats.count ++ recordBytes sl.published
  | .gate g =>
    let d := s.desc g
    [d.state.code, d.lastReason.code] ++ leBytes 2 d.noticeCount.toNat ++ leBytes 4 d.gateNumber.toNat
    ++ [flagByte d.commitPending, flagByte d.lastGate]
  | .timebase =>
    [s.tb.state.code, s.tb.selected.code, s.tb.inForce.code, flagByte s.tb.holdover, s.tb.monitor.code]
    ++ leBytes 2 s.tb.changeCount.toNat ++ [s.tb.lastCause.code]
  | .cal c =>
    (s.chan c).attempt.bytes ++ [(s.chan c).statusByte, BitVec.ofNat 8 (s.chan c).span]
  | .advise c =>
    leBytes 2 (s.chan c).outOfSpan
    ++ [BitVec.ofNat 8 (s.chan c).span, (s.chan c).statusByte, lastBinByte (s.chan c).lastBin]
    ++ leBytes 2 (s.chan c).attempt.number.toNat

/-- The payload of a NOTICE frame (R162, R174). -/
def State.noticePayload (s : State) (e : Notice) : List Byte :=
  [e.key.header.1, e.key.header.2, BitVec.ofNat 8 e.postings, 0] ++ s.noticeContents e.key

/-- A stream entry as its 20 bytes (R175). -/
def Entry.bytes : Entry → List Byte
  | .stamp c n t f => [1, chanByte c, f.byte false, 0] ++ leBytes 6 n.toNat ++ [0, 0] ++ leBytes 8 t.toNat
  | .gap c k => [2, chanByte c, 0, 0] ++ leBytes 4 k ++ List.replicate 12 0

/-- The payload of a STREAM frame: frame number, entry count, occupancy after the removal and the entries (R145, R175). -/
def streamPayload (number : BitVec 16) (entries : List Entry) (left : Nat) : List Byte :=
  leBytes 2 number.toNat ++ [BitVec.ofNat 8 entries.length, 0] ++ leBytes 2 left ++ [0, 0]
  ++ entries.flatMap Entry.bytes

end Sys2Proof.Machine
end

