-- ==== Sys2Proof/Machine/Arbiter.lean ====
section
/-! DEFINITION. The outbound side of the link: frames on the line, the arbiter's pick, and how an event that leaves the transmitter free ends with a pick (R145, R162, R164). -/

namespace Sys2Proof.Machine

/-- The head reply goes on the line (R164, first choice). -/
def State.sendReply (s : State) (r : Reply) (rest : List Reply) : State :=
  s.modLink (fun l =>
    { l with replyQueue := rest
             tx := some { kind := Config.kindReply, payload := r.payload, restart := r.restart } })

/-- A notice frame is formed from the oldest entry (R162; R164, second choice). -/
def State.sendNotice (s : State) (e : Notice) (rest : List Notice) : State :=
  s.modLink (fun l =>
    { l with noticeQueue := rest
             tx := some { kind := Config.kindNotice, payload := s.noticePayload e, restart := none } })

/-- A stream frame is formed: up to 32 entries leave the FIFO and the frame number advances (R145; R164,
third choice). -/
def State.sendStream (s : State) : State :=
  let entries := s.stream.fifo.take Config.frameEntries
  let left := s.stream.fifo.drop Config.frameEntries
  let number := s.stream.frameNumber + 1
  (s.modStream (fun u => { u with fifo := left, frameNumber := number })).modLink (fun l =>
    { l with tx := some { kind := Config.kindStream, payload := streamPayload number entries left.length,
                          restart := none } })

/-- The arbiter's choice for a free transmitter: reply, else notice, else stream, else nothing (R164). -/
def State.pick (s : State) : State :=
  match s.link.replyQueue, s.link.noticeQueue, s.stream.fifo with
  | r :: rest, _, _ => s.sendReply r rest
  | [], e :: rest, _ => s.sendNotice e rest
  | [], [], _ :: _ => s.sendStream
  | [], [], [] => s

/-- The arbiter can pick: the part operates, LNKCLK runs and the transmitter is free (R153, R164, R171). -/
def State.txFree (s : State) : Bool :=
  decide (s.power = .ready) && s.lnkclk && s.link.tx.isNone

/-- A free transmitter picks at the first event that gives it something to send (R164). -/
def State.arbitrate (s : State) : State := if s.txFree then s.pick else s

/-- An event of an operating part: its effect, then the arbiter's pick. During a power-on reset the event
reaches nothing (R171). -/
def State.event (s : State) (f : State → State) : Host.Outcome State Fault Refusal :=
  .next (if s.power = .ready then (f s).arbitrate else s)

end Sys2Proof.Machine
end

