-- ==== Sys2Proof/Machine/Slots.lean ====
section
/-! DEFINITION. The result store: publishing, presentation and statistics (R124 to R131, R135, R136). -/

namespace Sys2Proof.Machine

/-- A record enters the statistics: completion NORMAL and no OVERRANGE (R129). -/
def Record.eligible (r : Record) : Bool := decide (r.completion = .normal) && !r.overrange

/-- The statistics after an eligible value `v` of function `fn` (R130, R131). -/
def Stats.add (st : Stats) (fn : Fn) (v : Int) : Stats :=
  if fn = st.fn then
    if st.count < Config.sat32 then
      { st with
        count := st.count + 1
        sum := st.sum + v
        minimum := some (match st.minimum with
          | some m => if v < m then v else m
          | none => v)
        maximum := some (match st.maximum with
          | some m => if m < v then v else m
          | none => v) }
    else st
  else { fn := fn, count := 1, minimum := some v, maximum := some v, sum := v }

/-- The statistics after the presentation of a record (R130). -/
def Stats.take (st : Stats) (r : Record) : Stats :=
  match r.value with
  | some v => if r.eligible then st.add r.fn v else st
  | none => st

/-- A presentation: the record becomes the published record, the publish count advances, the statistics take
it if eligible, and a RESULT notice is posted (R125, R135). -/
def State.present (s : State) (k : SlotId) (r : Record) : State :=
  (s.modSlot k (fun sl =>
    { sl with published := some r, publishCount := sl.publishCount + 1, stats := sl.stats.take r })).post
    (.result k)

/-- A publish to slot `k`: presented when the slot is not held, else pending, a pending record it replaces
being lost (R124, R136). -/
def State.publish (s : State) (k : SlotId) (r : Record) : State :=
  if (s.slot k).held then
    s.modSlot k (fun sl => { sl with waiting := some r, lost := sl.lost || sl.waiting.isSome })
  else s.present k r

/-- The release of slot `k`: its pending record, if any, is presented (R128). -/
def State.release (s : State) (k : SlotId) : State :=
  if (s.slot k).held then
    match (s.slot k).waiting with
    | some r => (s.modSlot k (fun sl => { sl with held := false, waiting := none })).present k r
    | none => s.modSlot k (fun sl => { sl with held := false })
  else s

end Sys2Proof.Machine
end

