-- ==== Sys2Proof/Machine/Values.lean ====
section
/-! DEFINITION. The values of result records: exact quotients, rounding and saturation (R104, R113 to R117, R120). -/

namespace Sys2Proof.Machine

/-- The upper extreme of an unsigned and of a signed value field (R104). -/
def unsignedTop : Nat := 2 ^ 64 - 1

def signedTop : Int := 2 ^ 63 - 1

/-- An unsigned quotient rounded half up, saturated: the value and whether OVERRANGE marks it. A zero divisor
gives the upper extreme (R104). -/
def unsignedValue (num den : Nat) : Int × Bool :=
  if den = 0 then (unsignedTop, true)
  else if unsignedTop < roundHalfUp num den then (unsignedTop, true)
  else (roundHalfUp num den, false)

/-- The frequency in µHz (R113). -/
def freqValue (dn : Count) (dt : Time) : Int × Bool :=
  unsignedValue (dn.toNat * 409600000000000000) dt.toNat

/-- The period in fs (R114). -/
def periodValue (dn : Count) (dt : Time) : Int × Bool :=
  unsignedValue (dt.toNat * 78125) (32 * dn.toNat)

/-- The ratio in units of 2^-32 (R115). -/
def ratioValue (dnA dnB : Count) : Int × Bool := unsignedValue (dnA.toNat * 2 ^ 32) dnB.toNat

/-- The interval in fs, signed, saturating symmetrically (R104, R117). -/
def intervalValue (dt : Time) : Int × Bool :=
  let v := roundHalfAway (dt.toInt * 78125) 32
  if signedTop < v then (signedTop, true)
  else if v < -signedTop then (-signedTop, true)
  else (v, false)

end Sys2Proof.Machine
end

