-- ==== Sys2Proof/Machine/Engine.lean ====
section
/-! DEFINITION. The measurement engine: readiness and arming, the opening and closing of gates, the forming of records and what a descriptor does with a stamp or an AUX event (R80 to R100, R105 to R112, R116, R118, R119, R121). -/

namespace Sys2Proof.Machine

/-! ## Records (R121) -/

/-- The count of an optional channel in a sample. -/
def Sample.count (m : Sample) : Option Chan → Count
  | none => 0
  | some c => m.counts[c]

/-- FREQ, PERIOD or RATIO: a gate that opens and closes on primary stamps (R108). -/
def Fn.edgeSynced : Fn → Bool
  | .freq => true | .period => true | .ratio => true
  | .none => false | .interval => false | .totalize => false

/-- n_close: the closing stamp's n; without a stamp the count sampled at the close instant, of the secondary
channel for INTERVAL and of the primary otherwise (R105, R121). -/
def CloseEvent.nClose (e : CloseEvent) (cp : GateCopy) : Count :=
  match e.stamp with
  | some st => st.n
  | none => e.sample.count (if cp.fn = .interval then cp.secondary else cp.primary)

/-- t_close: the closing stamp's t, or the close instant × 1024 (R111, R116, R120). -/
def CloseEvent.tClose (e : CloseEvent) : Time :=
  match e.stamp with
  | some st => st.t
  | none => instantTime e.sample.instant

/-- Δn_B: the difference of the secondary counts sampled at the opening and at the close (R115). -/
def secondaryDelta (cp : GateCopy) (k : GateCtx) (e : CloseEvent) : Count :=
  e.sample.count cp.secondary - k.opening.count cp.secondary

/-- The value of a gate, with its OVERRANGE mark (R113 to R115, R117, R120). -/
def gateValue (cp : GateCopy) (k : GateCtx) (e : CloseEvent) : Int × Bool :=
  let dn := e.nClose cp - k.nOpen cp
  let dt := e.tClose - k.tOpen
  match cp.fn with
  | .freq => freqValue dn dt
  | .period => periodValue dn dt
  | .ratio => ratioValue dn (secondaryDelta cp k e)
  | .interval => intervalValue dt
  | .totalize => (dn.toNat, false)
  | .none => (0, false)

/-- The flags of the record: those gathered and those of the closing stamp (R106). -/
def recordFlags (k : GateCtx) (e : CloseEvent) : QFlags :=
  match e.stamp with
  | some st => k.flags.union st.flags
  | none => k.flags

/-- The result record of descriptor `g`, from its gate context and close event; it carries the gate number
after the increment (R92, R121). -/
def formRecord (g : Desc) (d : Descriptor) (k : GateCtx) (e : CloseEvent) : Record :=
  let v := gateValue d.active k e
  let valued := decide (e.completion ≠ .noClose)
  { desc := g, gateNumber := d.gateNumber + 1, fn := d.active.fn, completion := e.completion
    flags := recordFlags k e, overrange := valued && v.2
    tOpen := k.tOpen, tClose := e.tClose, nOpen := k.nOpen d.active, nClose := e.nClose d.active
    secondaryDelta := if d.active.fn = .ratio then some (secondaryDelta d.active k e) else none
    value := if valued then some v.1 else none }

/-! ## Readiness and arming (R84, R85, R88) -/

/-- The copy's timeout started at coarse count `x` (R94). -/
def GateCopy.startTimeout (cp : GateCopy) (x : Coarse) : Option Coarse :=
  cp.timeout.map (fun e => x + timeoutCycles e)

/-- The descriptor is ready: the timebase runs and every used channel is ONLINE (R84). -/
def State.ready (s : State) (g : Desc) : Bool :=
  s.tb.counting && (s.desc g).active.used.all (fun c => decide (s.chanState c = .online))

/-- The entry into OPEN with an opening: the context is formed, C_end set and a timeout started where the gate is
ended by events (R90, R94, R108, R118). A C_end already reached expires at once: an edge-synchronized gate passes into
CLOSING, and a TOTALIZE gate takes its close event (R7, R112, R118). -/
def State.openGate (s : State) (g : Desc) (stamp : Option Stamp) (m : Sample) : State :=
  s.modDesc g (fun d =>
    let cp := d.active
    let cEnd := match cp.mode with
      | .time len => some (m.instant + gateCycles len)
      | _ => none
    let reached := cEnd.filter (fun x => atOrAfter s.tb.coarse x)
    let past := cp.fn.edgeSynced && reached.isSome
    let timed := match cp.mode with
      | .time _ => past
      | _ => true
    let flags := match stamp with
      | some st => st.flags.union s.tb.gateFlags
      | none => s.tb.gateFlags
    { d with
      state := if past then .closing else .gateOpen
      ctx := some { openStamp := stamp, opening := m, cEnd := cEnd, last := none, flags := flags,
                    endReached := false }
      timeoutAt := if timed then cp.startTimeout s.tb.coarse else none
      closeEvent := if cp.fn = .totalize then
          reached.map (fun x => { completion := .normal, stamp := none, sample := s.sampleAt x })
        else none })

/-- The entry into ARMED: no context, the timeout started (R88, R94). -/
def State.enterArmed (s : State) (g : Desc) : State :=
  s.modDesc g (fun d =>
    { d with state := .armed, ctx := none, timeoutAt := d.active.startTimeout s.tb.coarse,
             closeEvent := none })

/-- Arming with the counts at the arm instant: TOTALIZE in gate mode TIME opens its gate there, every other
descriptor enters ARMED (R88, R118). -/
def State.arm (s : State) (g : Desc) (m : Sample) : State :=
  match (s.desc g).active.fn, (s.desc g).active.mode with
  | .totalize, .time _ => s.openGate g none m
  | _, _ => s.enterArmed g

/-- The standing condition IMMEDIATE: a ready descriptor in WAIT_ARM arms (R85). -/
def State.judge (s : State) (g : Desc) : State :=
  if (s.desc g).state = .waitArm ∧ (s.desc g).active.arm = .immediate ∧ s.ready g = true then
    s.arm g s.sampleNow
  else s

/-- Every descriptor in WAIT_ARM judges its readiness (R84). -/
def State.judgeAll (s : State) : State := s.forEight (fun g u => u.judge g)

/-- The entry into WAIT_ARM, where readiness is judged (R84). -/
def State.enterWaitArm (s : State) (g : Desc) : State :=
  (s.modDesc g (fun d => { d with state := .waitArm, ctx := none, timeoutAt := none, closeEvent := none })).judge g

/-- The entry into OFF at the end of a run: the last-gate mark is cleared (R93, R99). -/
def State.enterOff (s : State) (g : Desc) : State :=
  s.modDesc g (fun d =>
    { d with state := .off, ctx := none, timeoutAt := none, lastGate := false, closeEvent := none })

/-- An arm event or chain event at descriptor `g`: it arms if it is in WAIT_ARM and ready (R86, R87). -/
def State.armEvent (s : State) (g : Desc) (m : Sample) : State :=
  if (s.desc g).state = .waitArm ∧ s.ready g = true then s.arm g m else s

/-- A chain event from `g` handed to every descriptor chained to it (R87). -/
def State.chainFrom (s : State) (g : Desc) : State :=
  s.forEight (fun h u => if (u.desc h).active.arm = .chain g then u.armEvent h u.sampleNow else u)

/-! ## The end of a gate (R92, R93) -/

/-- The staged copy becomes the active copy (R80, R81). -/
def Descriptor.commit (d : Descriptor) : Descriptor :=
  { d with active := d.staged, commitPending := false }

/-- A pending commit applied, if there is one (R81). -/
def Descriptor.applyPending (d : Descriptor) : Descriptor := if d.commitPending then d.commit else d

/-- Two copies keep continuity: function, channels and gate mode kind are equal (R81). -/
def GateCopy.continues (old new : GateCopy) : Bool :=
  decide (old.fn = new.fn) && decide (old.primary = new.primary) && decide (old.secondary = new.secondary)
    && decide (old.mode.kind = new.mode.kind)

/-- The state a descriptor goes on into when its copies keep continuity (R93, R112, R118). -/
def State.goOn (s : State) (g : Desc) (e : CloseEvent) : State :=
  match (s.desc g).active.fn, (s.desc g).active.mode with
  | .totalize, .time _ => s.openGate g none e.sample
  | .totalize, _ => s.enterArmed g
  | .interval, _ => s.enterArmed g
  | .none, _ => s.enterArmed g
  | _, _ => if e.completion = .noClose then s.enterArmed g else s.openGate g e.stamp e.sample

/-- Steps 4 and 5 of a close event: a pending commit is applied and the next state entered. `old` is the
descriptor under which the gate ran (R81, R92, R93). -/
def State.afterGate (s : State) (g : Desc) (old : Descriptor) (e : CloseEvent) : State :=
  let u := s.modDesc g Descriptor.applyPending
  if old.active.continuous && !old.lastGate then
    if old.active.continues (u.desc g).active then u.goOn g e
    else if (u.desc g).active.fn = .none then u.enterOff g
    else u.enterWaitArm g
  else u.enterOff g

/-- Steps 1 to 5 of a close event (R92). -/
def State.conclude (s : State) (g : Desc) (e : CloseEvent) : State :=
  let d := s.desc g
  match d.ctx with
  | none => s
  | some k =>
    let u := s.modDesc g (fun d => { d with gateNumber := d.gateNumber + 1, closeEvent := none })
    let v := (u.publish d.active.slot (formRecord g d k e)).chainFrom g
    v.afterGate g d e

/-- The record carries a count sampled at an instant that the counter has not passed, so it waits for the first tick
after that instant: TOTALIZE, NO_CLOSE and RATIO. Where that tick has come already the count is available, and nothing
waits (R7, R34, R92). -/
def State.awaitsCount (s : State) (d : Descriptor) (e : CloseEvent) : Bool :=
  (decide (d.active.fn = .totalize) || decide (e.completion = .noClose) || decide (d.active.fn = .ratio))
  && !atOrAfter s.tb.coarse (e.sample.instant + 1)

/-- A close event at descriptor `g` (R92). -/
def State.closeGate (s : State) (g : Desc) (e : CloseEvent) : State :=
  if s.awaitsCount (s.desc g) e then s.modDesc g (fun d => { d with closeEvent := some e })
  else s.conclude g e

/-! ## Stamps and AUX events (R89) -/

/-- The completion of a gate closed by its own condition or a closing stamp: STOPPED when the end-reached mark
is set (R107). -/
def GateCtx.completion (k : GateCtx) : Completion := if k.endReached then .stopped else .normal

/-- A primary stamp closes an edge-synchronized gate in progress (R109, R110). -/
def closesGate (d : Descriptor) (k : GateCtx) (st : Stamp) : Bool :=
  match d.state, d.active.mode with
  | .closing, _ => true
  | _, .time _ => (match k.cEnd with
    | some x => atOrAfter st.coarse x
    | none => false)
  | _, .count len => k.endReached || decide (len ≤ (st.n - k.nOpen d.active).toNat)
  | _, _ => false

/-- A primary stamp that does not close the gate becomes the context's last primary stamp, with the counts at its
coarse count (R82, R105). -/
def State.keepLast (s : State) (g : Desc) (st : Stamp) (m : Sample) : State :=
  s.modDesc g (fun d => { d with ctx := d.ctx.map (fun k => { k with last := some (st, m) }) })

/-- A stamp of a used channel, judged in the descriptor's state; `m` holds the counts at its coarse count (R82, R89,
R90, R91, R108 to R110, R116). In ARMED every primary stamp opens a gate, also of INTERVAL with the secondary equal to
the primary after its timeout has expired, where R97 says that a stop stamp has no effect: the model's choice
(notes/assumptions/29.md). -/
def State.takeStamp (s : State) (g : Desc) (st : Stamp) (m : Sample) : State :=
  let d := s.desc g
  let primary := decide (d.active.primary = some st.chan)
  match d.state with
  | .off => s
  | .waitArm => s
  | .armed =>
    if primary && (d.active.fn.edgeSynced || decide (d.active.fn = .interval)) then
      s.openGate g (some st) m
    else s
  | _ =>
    match d.ctx with
    | none => s
    | some k =>
      if d.active.fn.edgeSynced && primary && closesGate d k st then
        s.closeGate g { completion := k.completion, stamp := some st, sample := m }
      else if d.active.fn = .interval ∧ d.active.secondary = some st.chan then
        s.closeGate g { completion := .normal, stamp := some st, sample := m }
      else if primary then s.keepLast g st m
      else s

/-- The descriptor is a TOTALIZE descriptor with gate mode AUX (R119). -/
def GateCopy.totalizeAux (cp : GateCopy) : Bool :=
  decide (cp.fn = .totalize) && decide (cp.mode = .aux)

/-- What a descriptor takes: stamps of its used channels, gate events under gate mode AUX, arm events (R86, R89). -/
def GateCopy.takes (cp : GateCopy) : MenEvent → Bool
  | .stamp st => cp.used.contains st.chan
  | .auxArm => true
  | .auxOpen => decide (cp.mode = .aux)
  | .auxClose => decide (cp.mode = .aux)

/-- An event at a descriptor that waits for no record (R86, R89, R119). -/
def State.judgeEvent (s : State) (g : Desc) (ev : MenEvent) (m : Sample) : State :=
  let d := s.desc g
  match ev with
  | .stamp st => s.takeStamp g st m
  | .auxArm => if d.active.arm = .aux then s.armEvent g m else s
  | .auxOpen => if d.active.totalizeAux = true ∧ d.state = .armed then s.openGate g none m else s
  | .auxClose =>
    if d.active.totalizeAux = true ∧ d.state = .gateOpen then
      s.closeGate g { completion := .normal, stamp := none, sample := m }
    else s

/-- An event offered to descriptor `g`. Between a close event and the forming of its record the event waits,
in order; otherwise it is judged now (R89, R92). -/
def State.offer (s : State) (g : Desc) (ev : MenEvent) (m : Sample) : State :=
  if (s.desc g).active.takes ev then
    if (s.desc g).closeEvent.isSome then
      s.modDesc g (fun d => { d with deferred := d.deferred ++ [(ev, m)] })
    else s.judgeEvent g ev m
  else s

/-- The record of descriptor `g` is formed, and the events that waited are judged in order (R92). -/
def State.formation (s : State) (g : Desc) : State :=
  match (s.desc g).closeEvent with
  | none => s
  | some e =>
    let u := (s.modDesc g (fun d => { d with deferred := [] })).conclude g e
    (s.desc g).deferred.foldl (fun v p => v.offer g p.1 p.2) u

/-! ## The timebase and running gates (R100, R106) -/

/-- Every gate in progress, before its close event, gathers the flags the timebase now gives (R106). -/
def State.gatherFlags (s : State) : State :=
  s.forEight (fun g u =>
    if (u.desc g).inGate = true ∧ (u.desc g).closeEvent = none then
      u.modDesc g (fun d =>
        { d with ctx := d.ctx.map (fun k => { k with flags := k.flags.union u.tb.gateFlags }) })
    else u)

/-- At the entry into HALT the records that wait are formed, once for each close event (R92). -/
def State.formAtHalt (s : State) (g : Desc) : Nat → State
  | 0 => s
  | fuel + 1 => if (s.desc g).closeEvent.isSome then (s.formation g).formAtHalt g fuel else s

/-- A running descriptor at the entry into HALT returns to WAIT_ARM, or enters OFF under an applied commit of
NONE, and a GATE notice of reason TIMEBASE is posted (R100). -/
def State.returnToWait (s : State) (g : Desc) : State :=
  if (s.desc g).running then
    (s.modDesc g (fun d =>
      let e := d.applyPending
      { e with state := if e.active.fn = .none then .off else .waitArm
               ctx := none, timeoutAt := none, closeEvent := none, deferred := [] })).postGate g .timebase
  else s

/-- The engine at the entry of the timebase into HALT (R92, R100). Where records of several descriptors wait, they are
formed, and so reach a slot that they share, in increasing number of descriptor: the model's choice, since R92 gives
no order (notes/assumptions/25.md). -/
def State.haltDescs (s : State) : State :=
  (s.forEight (fun g u => u.formAtHalt g ((u.desc g).deferred.length + 1))).forEight
    (fun g u => u.returnToWait g)

end Sys2Proof.Machine
end

