-- ==== Sys2Proof/Machine/TimebaseOps.lean ====
section
/-! DEFINITION. What the timebase and the calibration unit do to the rest of the part: the end of a calibration, relocks, halts and losses (R12 to R18, R55, R67 to R72, R100, R106). -/

namespace Sys2Proof.Machine

/-! ## The end of a calibration -/

/-- The attempt of the channel in calibration takes its outcome and the calibration is removed: the channel is
ONLINE again and the oscillator stops (R67 to R70). -/
def State.dropCal (s : State) (outcome : CalOutcome) : State :=
  match s.cal with
  | none => s
  | some r =>
    { s.modChan r.chan (fun ch => { ch with attempt := { ch.attempt with outcome := outcome } }) with
      cal := none }

/-- A calibration ends: its outcome, a CAL notice, and readiness judged anew, since a channel has become ONLINE
(R67 to R69, R72, R84). -/
def State.endCal (s : State) (outcome : CalOutcome) : State :=
  match s.cal with
  | none => s
  | some r => ((s.dropCal outcome).post (.cal r.chan)).judgeAll

/-- A successful calibration installs its table set (R66, R67). -/
def State.installTable (s : State) (c : Chan) : State :=
  s.modChan c (fun ch =>
    { ch with
      table := builtTable ch.histogram ch.attempt.spanFound
      calibrated := true
      span := ch.attempt.spanFound
      outOfSpan := 0
      adviceArmed := true })

/-- The outcome of the checks on a complete histogram, in order (R65). -/
def judgeHistogram (h : Vector Nat 160) (span : Nat) : CalOutcome :=
  if lineIsShort h then .lineShort
  else if span < 64 then .span
  else if hasWideBin h span then .binWidth
  else .success

/-- The end of the collection at the last hit: the checks, then success or failure (R65, R67, R68). -/
def State.judgeCal (s : State) (c : Chan) : State :=
  let ch := s.chan c
  match judgeHistogram ch.histogram ch.attempt.spanFound with
  | .success => (s.installTable c).endCal .success
  | other => s.endCal other

/-! ## Timebase transitions -/

/-- Holdover for a selected source and a source in force (R13). -/
def holdoverOf (selected inForce : Source) : Bool :=
  decide (selected = .ext) && decide (inForce = .int)

/-- The timebase enters HALT from another state: NONE in force, the dead times idle, a calibration aborted if
RUN was left, and, from RUN or RELOCK, the running descriptors sent to WAIT_ARM (R10, R15, R55, R69, R100). -/
def State.enterHalt (s : State) (cause : TbCause) : State :=
  let was := s.tb.state
  let u := (s.modTb (fun tb =>
    { tb with state := .halt, inForce := .none, holdover := false, phaseTimer := none })).postTimebase cause
  let v := u.forChans (fun c w => w.modChan c (fun ch => { ch with deadEnd := none }))
  let w := if was = .run then v.endCal .timebase else v
  if s.tb.counting then w.haltDescs else w

/-- A relock onto `target` begins, or is redirected: the source comes into force, the phase timer starts, a
calibration is aborted if RUN was left, and gates in progress gather their flags (R12, R14, R69, R106). -/
def State.beginRelock (s : State) (target : Source) (cause : TbCause) : State :=
  let was := s.tb.state
  let u := (s.modTb (fun tb =>
    { tb with state := .relock, inForce := target, holdover := holdoverOf tb.selected target,
              phaseTimer := some Config.relockCycles })).postTimebase cause
  let v := if was = .run then u.endCal .timebase else u
  v.gatherFlags

/-- A loss in ACQUIRE restarts the acquisition on INT (R14). -/
def State.restartAcquire (s : State) : State :=
  (s.modTb (fun tb =>
    { tb with inForce := .int, holdover := holdoverOf tb.selected .int,
              phaseTimer := some Config.acquireCycles })).postTimebase .loss

/-- A loss: with detection ON its action, by the state of the timebase (R14, R15). -/
def State.lose (s : State) : State :=
  if s.tb.lossDetect then
    match s.tb.lossAction, s.tb.state with
    | _, .halt => s
    | .halt, _ => s.enterHalt .loss
    | .switch, .acquire => s.restartAcquire
    | .switch, _ => s.beginRelock .int .loss
  else s

/-- The monitor enters ABSENT with run count 0; from PRESENT or GOOD with EXT in force this is a loss (R4). -/
def State.monitorAbsent (s : State) : State :=
  let lost := decide (s.tb.monitor ≠ .absent) && decide (s.tb.inForce = .ext)
  let u := s.modTb (fun tb => { tb with monitor := .absent, runCount := 0 })
  if lost then u.lose else u

/-- The monitor enters GOOD: with auto-revert ON and the timebase in RUN in holdover, a relock onto EXT begins
(R4, R16). -/
def State.monitorGood (s : State) : State :=
  let u := s.modTb (fun tb => { tb with monitor := .good, runCount := Config.goodRun })
  if u.tb.autoRevert = true ∧ u.tb.state = .run ∧ u.tb.holdover = true then u.beginRelock .ext .revert
  else u

/-- A good window ends (R4). -/
def State.goodWindow (s : State) : State :=
  match s.tb.monitor with
  | .absent => s.modTb (fun tb => { tb with monitor := .present, runCount := 1 })
  | .present =>
    if s.tb.runCount + 1 < Config.goodRun then s.modTb (fun tb => { tb with runCount := tb.runCount + 1 })
    else s.monitorGood
  | .good => s

/-- The window is good (R3). -/
def Timebase.windowGood (tb : Timebase) : Bool :=
  decide (Config.windowLow ≤ tb.windowCount) && decide (tb.windowCount ≤ Config.windowHigh)
    && !tb.windowStarved

/-- A new monitor window begins (R3). -/
def Timebase.newWindow (tb : Timebase) : Timebase := { tb with windowCount := 0, windowStarved := false }

end Sys2Proof.Machine
end

