-- ==== Sys2Proof/Machine/Expiries.lean ====
section
/-! DEFINITION. Instants and their expiries: what the blocks wait for, what each expiry does, and how the coarse counter moves on, every instant it comes to expiring before it leaves it (R6, R7, R30, R42, R64, R91, R92, R94 to R97). -/

namespace Sys2Proof.Machine

/-! ## Gate expiries (R91, R95 to R97) -/

/-- The expiry of C_end at a descriptor in OPEN: an edge-synchronized gate passes into CLOSING with a timeout, a
TOTALIZE gate closes at C_end (R91, R118). -/
def State.nominalEnd (s : State) (g : Desc) (x : Coarse) : State :=
  if (s.desc g).active.fn.edgeSynced then
    s.modDesc g (fun d => { d with state := .closing, timeoutAt := d.active.startTimeout s.tb.coarse })
  else if (s.desc g).active.fn = .totalize then
    s.closeGate g { completion := .normal, stamp := none, sample := s.sampleAt x }
  else s

/-- The timeout of a descriptor in ARMED: back to WAIT_ARM with a NO_SIGNAL notice, where an IMMEDIATE descriptor
that is ready arms again (R95). -/
def State.armedTimeout (s : State) (g : Desc) : State :=
  ((s.modDesc g (fun d => { d with state := .waitArm, timeoutAt := none })).postGate g .noSignal).judge g

/-- The close event that the timeout brings to a gate in progress at instant `x`: SHORT with the last primary
stamp, or at the expiry instant for TOTALIZE, else NO_CLOSE (R96, R97). -/
def State.timeoutClose (s : State) (d : Descriptor) (k : GateCtx) (x : Coarse) : CloseEvent :=
  match d.active.fn, k.last with
  | .totalize, _ => { completion := .short, stamp := none, sample := s.sampleAt x }
  | .interval, _ => { completion := .noClose, stamp := none, sample := s.sampleAt x }
  | _, some (st, m) => { completion := .short, stamp := some st, sample := m }
  | _, none => { completion := .noClose, stamp := none, sample := s.sampleAt x }

/-- The expiry of a descriptor's timeout at instant `x`, by its state (R95 to R97). -/
def State.timeout (s : State) (g : Desc) (x : Coarse) : State :=
  match (s.desc g).state, (s.desc g).ctx with
  | .armed, _ => s.armedTimeout g
  | .gateOpen, some k => s.closeGate g (s.timeoutClose (s.desc g) k x)
  | .closing, some k => s.closeGate g (s.timeoutClose (s.desc g) k x)
  | _, _ => s

/-! ## What the blocks wait for (R7) -/

/-- A wait of a block for an instant: a holdoff (R30), a dead time (R42), the calibration deadline (R64), a nominal
end (R91), a timeout (R94), or the first tick after a close event (R92). -/
inductive Wait where
  | holdoff (c : Chan) | deadTime (c : Chan) | deadline | nominalEnd (g : Desc) | timeout (g : Desc)
  | record (g : Desc)
  deriving DecidableEq, Repr

/-- Every wait there can be. Those of one instant expire in this order, unless the rows of the table order them
otherwise (notes/assumptions/4.md). -/
def Wait.all : List Wait :=
  allChans.map Wait.holdoff ++ allChans.map Wait.deadTime ++ [.deadline]
  ++ allEight.map Wait.nominalEnd ++ allEight.map Wait.timeout ++ allEight.map Wait.record

/-- The instant waited for; none where nothing waits. After a close event a gate waits for its record alone (R92). -/
def State.instantOf (s : State) : Wait → Option Coarse
  | .holdoff c => (s.chan c).holdoffEnd
  | .deadTime c => (s.chan c).deadEnd
  | .deadline => s.cal.map (fun r => r.deadline)
  | .nominalEnd g =>
    if (s.desc g).state = .gateOpen ∧ (s.desc g).closeEvent = none then (s.desc g).ctx.bind (fun k => k.cEnd)
    else none
  | .timeout g => if (s.desc g).closeEvent = none then (s.desc g).timeoutAt else none
  | .record g => (s.desc g).closeEvent.map (fun e => e.sample.instant + 1)

/-- The expiry of the instant `x` of a wait, at the count that the counter has (R7). -/
def State.expire (s : State) (w : Wait) (x : Coarse) : State :=
  match w with
  | .holdoff c => s.modChan c (fun ch => { ch with holdoffEnd := none })
  | .deadTime c => s.modChan c (fun ch => { ch with deadEnd := none })
  | .deadline => s.endCal .osc
  | .nominalEnd g => s.nominalEnd g x
  | .timeout g => s.timeout g x
  | .record g => s.formation g

/-! ## The counter moves on (R6, R7) -/

/-- The wait expires if the counter is at or after its instant. -/
def State.expireIfDue (s : State) (w : Wait) : State :=
  match s.instantOf w with
  | some x => if atOrAfter s.tb.coarse x then s.expire w x else s
  | none => s

/-- The wait is due: the counter is at or after its instant (R7). -/
def State.isDue (s : State) (w : Wait) : Bool :=
  match s.instantOf w with
  | some x => atOrAfter s.tb.coarse x
  | none => false

/-- One round over the waits: each that is due when its turn comes expires, an event of its own. -/
def State.settleOnce (s : State) : State :=
  Wait.all.foldl (fun u w =>
    match u.instantOf w with
    | some x => if atOrAfter u.tb.coarse x then (u.expire w x).arbitrate else u
    | none => u) s

/-- Rounds, as long as a wait is due: one that an expiry began with its instant already reached expires too (R7). -/
def State.settleIn : Nat → State → State
  | 0, s => s
  | fuel + 1, s => if Wait.all.any s.isDue then State.settleIn fuel s.settleOnce else s

/-- Every wait that is due at the present count expires, until none is. Where no instant is past, as in every run, one
round is enough, since what an expiry starts lies ahead; as many rounds as there are waits bound the others. -/
def State.settle (s : State) : State := State.settleIn Wait.all.length s

/-- The cycles from the present count to the next instant ahead of it, `far` where there is none nearer. -/
def State.cyclesAhead (s : State) (far : Nat) : Nat :=
  Wait.all.foldl (fun d w =>
    match s.instantOf w with
    | some x => if atOrAfter s.tb.coarse x then d else min d (x - s.tb.coarse).toNat
    | none => d) far

/-- The counter moves on to count `x`: what is due at the present count expires, until nothing is, the counter
goes to the next instant before `x`, if there is one, and so on. Each round moves it by at least one cycle, so the
number of cycles to `x` is fuel enough. -/
def State.advance : Nat → State → Coarse → State
  | 0, s, x => s.atCount x
  | fuel + 1, s, x =>
    let u := s.settle
    let far := (x - u.tb.coarse).toNat
    let d := u.cyclesAhead far
    if d < far then State.advance fuel (u.atCount (u.tb.coarse + BitVec.ofNat 54 d)) x else u.atCount x

/-- The counter moves on to the next tick that carries the count `x`. It counts modulo 2^54, so such a tick always
comes; at the present count no tick passes and nothing expires (R6, R7). -/
def State.advanceTo (s : State) (x : Coarse) : State := State.advance (x - s.tb.coarse).toNat s x

/-- The row of a wait's expiry: the counter moves on to the instant if it is not there yet, and the wait expires, unless
what expired on the way has ended it (R7). Instants expire in RUN and RELOCK alone. -/
def State.expiry (s : State) (w : Wait) : State :=
  match s.instantOf w with
  | some x =>
    if s.tb.counting then
      (if atOrAfter s.tb.coarse x then s else s.advanceTo x).expireIfDue w
    else s
  | none => s

/-- A core clock tick: the counter advances by one in RUN and RELOCK, what is due expiring before it does, and holds
otherwise (R6, R7). -/
def State.tick (s : State) : State := if s.tb.counting then s.advanceTo (s.tb.coarse + 1) else s

end Sys2Proof.Machine
end

