-- ==== Sys2Proof/Machine/Calibration.lean ====
section
/-! DEFINITION. Meanings of the calibration events: a hit and the deadline (R62, R64, R65). -/

namespace Sys2Proof.Machine

/-- A hit in the channel's histogram and last-attempt record (R62). -/
def Channel.hit (ch : Channel) (b : Bin) : Channel :=
  { ch with
    histogram := ch.histogram.set b.val (ch.histogram[b] + 1) b.isLt
    attempt := { ch.attempt with
      hits := ch.attempt.hits + 1
      spanFound := max ch.attempt.spanFound (b.val + 1) } }

/-- A hit of the calibration in progress, if there is one; the last hit ends the collection (R62, R65). -/
def State.takeHit (s : State) (b : Bin) : State :=
  match s.cal with
  | some r =>
    let u := s.modChan r.chan (fun ch => ch.hit b)
    if Config.hitTarget ≤ (u.chan r.chan).attempt.hits then u.judgeCal r.chan else u
  | none => s

/-- CAL_HIT: a transition of the oscillator is sampled at a core tick of RUN, as an edge is (R21, R62). With no calibration
in progress the oscillator is stopped (R58); a deadline that expires before that tick ends the calibration first (R64). -/
def execCalHit (tick : Coarse) (b : Bin) (s : State) : Host.Outcome State Fault Refusal :=
  s.event (fun s => if s.cal.isSome && s.tb.closesAt tick then (s.advanceTo tick).takeHit b else s)

/-- CAL_DEADLINE: the deadline expires before the last hit, and the outcome is OSC (R64, R68). -/
def execCalDeadline (s : State) : Host.Outcome State Fault Refusal :=
  s.event (fun s => s.expiry .deadline)

end Sys2Proof.Machine
end

