-- ==== Sys2Proof/Machine/Frames.lean ====
section
/-! DEFINITION. Bytes on the line and frames: the bits of a byte, the receiver's sampling of them, the CRC and the envelope of a frame (R153, R154, R173). -/

namespace Sys2Proof.Machine

/-! ## Bytes on a line (R153); true is mark -/

/-- The ten bit times of a byte: a start bit at space, eight data bits from the least significant, a stop bit at
mark (R153). -/
def lineBits (b : Byte) : List Bool :=
  [false, b.getLsbD 0, b.getLsbD 1, b.getLsbD 2, b.getLsbD 3, b.getLsbD 4, b.getLsbD 5, b.getLsbD 6,
    b.getLsbD 7, true]

/-- Four samples to each bit time (R153). -/
def lineSamples (bits : List Bool) : List Bool := bits.flatMap (fun b => [b, b, b, b])

/-- The samples of bytes sent one after another without idle time (R153). -/
def lineOf (bytes : List Byte) : List Bool := bytes.flatMap (fun b => lineSamples (lineBits b))

/-- The byte that the receiver takes from samples numbered from the first sample of the start bit: each data bit
at sample 3 of its bit time, whatever the stop bit (R153). -/
def sampledByte (samples : List Bool) : Byte :=
  BitVec.ofBoolListLE (allEight.map (fun k => samples.getD (4 * (k.val + 1) + 2) true))

/-! ## Frames (R154, R173) -/

/-- One bit through the CRC register: generator x^16 + x^12 + x^5 + 1 (R154). -/
def crcBit (r : BitVec 16) : BitVec 16 := if r.msb then (r <<< 1) ^^^ 0x1021 else r <<< 1

/-- One byte through the CRC register, most significant bit first (R154). -/
def crcByte (r : BitVec 16) (b : Byte) : BitVec 16 :=
  Nat.repeat crcBit 8 (r ^^^ (b.zeroExtend 16 <<< 8))

/-- The CRC of bytes: the register starts at all ones and is not inverted at the end (R154). -/
def crc (bytes : List Byte) : BitVec 16 := bytes.foldl crcByte 0xFFFF

/-- The bytes a CRC covers: kind, length and payload (R154). -/
def frameBody (kind : Byte) (payload : List Byte) : List Byte :=
  kind :: leBytes 2 payload.length ++ payload

/-- A frame on the line (R173). -/
def frameBytes (kind : Byte) (payload : List Byte) : List Byte :=
  Config.sync :: frameBody kind payload ++ leBytes 2 (crc (frameBody kind payload)).toNat

/-- The bytes of the frame on LNK_TX. -/
def TxFrame.bytes (f : TxFrame) : List Byte := frameBytes f.kind f.payload

end Sys2Proof.Machine
end

