-- ==== Sys2Proof/Machine/Receiver.lean ====
section
/-! DEFINITION. The receiver: candidate frames, their discards, the hunt through the buffer and the command queue, with the meanings of the receive events and of LNKCLK (R153 to R158). -/

namespace Sys2Proof.Machine

/-- What the bytes behind a candidate's SYNC byte make of it (R154 to R156). -/
inductive Verdict where
  /-- The candidate needs bytes that have not arrived. -/
  | more
  /-- A byte of the candidate after SYNC is marked late: discarded without count. -/
  | late
  /-- The length is above 1,040. -/
  | tooLong
  /-- The CRC field does not match. -/
  | badCrc
  /-- Well-formed: its kind, its payload and the bytes that follow it in the buffer. -/
  | frame (kind : Byte) (payload : List Byte) (rest : List RxByte)
  deriving DecidableEq, Repr

/-- A candidate frame judged field by field, from the bytes behind its SYNC byte (R154, R155, R156). -/
def judgeCandidate (bytes : List RxByte) : Verdict :=
  match bytes with
  | kind :: l0 :: l1 :: more =>
    if kind.late || l0.late || l1.late then .late
    else
      let len := leValue [l0.val, l1.val]
      if Config.maxPayload < len then .tooLong
      else
        let own := more.take (len + 2)
        if own.any (fun b => b.late) then .late
        else if own.length < len + 2 then .more
        else
          let payload := (own.take len).map (fun b => b.val)
          let field := leValue ((own.drop len).map (fun b => b.val))
          if field = (crc (kind.val :: l0.val :: l1.val :: payload)).toNat then
            .frame kind.val payload (more.drop (len + 2))
          else .badCrc
  | short => if short.any (fun b => b.late) then .late else .more

/-- A well-formed command offered to the command queue: it joins at the tail, or is an overrun (R158). -/
def Link.enqueue (l : Link) (payload : List Byte) : Link :=
  if l.commandQueue.length < Config.commandQueueSize then
    { l with commandQueue := l.commandQueue ++ [payload] }
  else { l with overruns := satInc Config.sat16 l.overruns }

/-- A well-formed frame: a COMMAND is offered to the queue, any other kind is discarded without count (R154). -/
def Link.takeFrame (l : Link) (kind : Byte) (payload : List Byte) : Link :=
  if kind = Config.kindCommand then l.enqueue payload else l

/-- The receiver works through its buffer: it hunts for a SYNC byte, judges the candidate, and after a discard hunts
again from the byte behind that SYNC, until the buffer is empty or a candidate waits for bytes (R154, R156). That this
holds at a gap expiry too, a candidate that would need to extend across the gap being discarded, as R155 says, only when
the next byte comes marked late, is the model's choice (notes/assumptions/31.md).
Every round but the last takes at least one byte from the buffer, so its length is fuel enough. -/
def Link.hunt : Nat → Link → Link
  | 0, l => l
  | fuel + 1, l =>
    match l.rxBuffer with
    | [] => l
    | b :: rest =>
      if b.val = Config.sync then
        match judgeCandidate rest with
        | .more => l
        | .late => Link.hunt fuel { l with rxBuffer := rest }
        | .tooLong =>
          Link.hunt fuel { l with rxBuffer := rest, lengthErrors := satInc Config.sat16 l.lengthErrors }
        | .badCrc =>
          Link.hunt fuel { l with rxBuffer := rest, crcErrors := satInc Config.sat16 l.crcErrors }
        | .frame kind payload left => Link.hunt fuel (Link.takeFrame { l with rxBuffer := left } kind payload)
      else Link.hunt fuel { l with rxBuffer := rest }

/-- A byte received: kept in the buffer, marked late after a gap, and judged (R154, R156). -/
def Link.receive (l : Link) (b : Byte) : Link :=
  let u := { l with rxBuffer := l.rxBuffer ++ [{ val := b, late := l.rxGap }], rxGap := false }
  Link.hunt u.rxBuffer.length u

/-- One sample of LNK_RX, true for mark (R153). A change from mark to space is a start bit. Sample 3 of the stop bit is
the 39th from there: the byte is then taken, whatever its stop bit, and after a stop bit at space the receiver waits
for mark. -/
def Link.sample (l : Link) (level : Bool) : Link :=
  match l.rxLine with
  | .looking => if level then l else { l with rxLine := .inByte [false] }
  | .awaitMark => if level then { l with rxLine := .looking } else l
  | .broken => if level then { l with rxLine := .looking } else l
  | .inByte samples =>
    if samples.length < 38 then { l with rxLine := .inByte (samples ++ [level]) }
    else { l with rxLine := if level then .looking else .awaitMark }.receive (sampledByte samples)

/-- FRAME_RECEIVED: samples of LNK_RX, four to a bit, reach the receiver of an operating part; while LNKCLK is stopped it
takes none (R153, R154). -/
def execFrameReceived (samples : List Bool) (s : State) : Host.Outcome State Fault Refusal :=
  s.event (fun s => if s.lnkclk then s.modLink (fun l => samples.foldl Link.sample l) else s)

/-- The receiver is between bytes: it looks for a start bit, or for mark before one (R153). -/
def RxLine.between : RxLine → Bool
  | .looking => true | .awaitMark => true | .broken => false | .inByte _ => false

/-- A byte can begin at the receiver: the part operates, LNKCLK runs and the line is between bytes (R153, R157, R171). -/
def State.receiving (s : State) : Bool :=
  decide (s.power = .ready) && s.lnkclk && s.link.rxLine.between

/-- RECEIVE_GAP_EXPIRY: the candidate is truncated and counted, the next byte is late, and the hunt goes on behind
the candidate's SYNC byte. The gap timer is idle while hunting, has expired once for one gap, and runs on the
internal oscillator even while LNKCLK is stopped (R153, R155, R156). That the buffered bytes are then examined at the
expiry, and not when LNKCLK returns, is the model's choice (notes/assumptions/26.md), and so is that a candidate found there
that needs bytes is kept (notes/assumptions/31.md). -/
def execReceiveGapExpiry (s : State) : Host.Outcome State Fault Refusal :=
  s.event (fun s => s.modLink (fun l =>
    match l.rxBuffer, l.rxGap with
    | _ :: rest, false =>
      Link.hunt rest.length
        { l with rxBuffer := rest, rxGap := true, truncated := satInc Config.sat16 l.truncated }
    | _, _ => l))

/-- LNKCLK_STOP: the transmitter, the receiver and the execution of commands stop (R153). -/
def execLnkclkStop (s : State) : Host.Outcome State Fault Refusal := .next { s with lnkclk := false }

/-- What the receiver waits for once LNKCLK has returned: mark, a byte in reception being lost (R153). -/
def RxLine.afterStop : RxLine → RxLine
  | .broken => .broken
  | .looking => .awaitMark | .awaitMark => .awaitMark | .inByte _ => .awaitMark

/-- LNKCLK_RETURN: the transmitter goes on with its frame, and the receiver waits for LNK_RX at mark (R153). That it does
so in a part that is held or starts up too, and is left so at the end of start-up, is the model's choice
(notes/assumptions/32.md). -/
def execLnkclkReturn (s : State) : Host.Outcome State Fault Refusal :=
  .next (({ s with lnkclk := true }.modLink (fun l =>
    { l with rxLine := if s.lnkclk then l.rxLine else l.rxLine.afterStop })).arbitrate)

/-- What the receiver does after LNK_RX has returned to mark: it looks for a start bit; a byte in reception goes on
(R153, R157). -/
def RxLine.atMark : RxLine → RxLine
  | .inByte samples => .inByte samples
  | .looking => .looking | .awaitMark => .looking | .broken => .looking

/-- LNK_RX_RETURN_TO_MARK: after a break the receiver can look for a start bit, and for a break, again (R153, R157). -/
def execLnkRxReturnToMark (s : State) : Host.Outcome State Fault Refusal :=
  .next (s.modLink (fun l => { l with rxLine := l.rxLine.atMark }))

end Sys2Proof.Machine
end

