-- ==== Sys2Proof/Machine/Execution.lean ====
section
/-! DEFINITION. The execution of commands by the link controller: when the head of the command queue is executed, the checks it makes itself, and the reply (R158, R159, R160, R170, R174). -/

namespace Sys2Proof.Machine

/-- What a block answers to a command: ACK with data, or NAK with a code and, for INVALID, the field named. -/
structure Answer where
  nak : Option Nak
  field : Byte
  data : List Byte
  restart : Option RestartKind
  deriving DecidableEq, Repr

/-- ACK with data (R159). -/
def Answer.ack (data : List Byte) : Answer := { nak := none, field := 0, data := data, restart := none }

/-- NAK with a code; byte 3 of the reply is 0 (R160, R174). -/
def Answer.refuse (code : Nak) : Answer := { nak := some code, field := 0, data := [], restart := none }

/-- NAK INVALID naming the field at an offset of the command's payload (R174). -/
def Answer.invalid (offset : Nat) : Answer :=
  { nak := some .invalid, field := BitVec.ofNat 8 offset, data := [], restart := none }

/-- The descriptor that the payload of a GATE command of the right length names (R159, R173). A GATE command of another
length names none and so waits for no record: the model's choice, since neither R92 nor R159 says whether such a
command waits (notes/assumptions/24.md). -/
def gateTarget (payload : List Byte) : Option Desc :=
  match payload with
  | code :: g :: rest =>
    if (code = 0x40 ∧ rest.length = 20) ∨ (code = 0x43 ∧ rest.length = 1)
        ∨ ((code = 0x41 ∨ code = 0x42 ∨ code = 0x44) ∧ rest.length = 0) then readEight g else none
  | _ => none

/-- A GATE command waits while its descriptor is between a close event and the forming of the record (R92, R159). -/
def State.gateBusy (s : State) (payload : List Byte) : Bool :=
  match gateTarget payload with
  | some g => (s.desc g).closeEvent.isSome
  | none => false

/-- The head command can be executed: the part operates, LNKCLK runs, no restart is pending, the reply queue has
room, and the command's descriptor waits for no record (R153, R159, R170, R171). -/
def State.canExecute (s : State) (payload : List Byte) : Bool :=
  decide (s.power = .ready) && s.lnkclk && s.link.restart.isNone
  && decide (s.link.replyQueue.length < Config.replyQueueSize) && !s.gateBusy payload

/-- The reply to the command of code `code` is formed under the next execution number and joins the reply queue (R159). -/
def State.reply (s : State) (code : Byte) (a : Answer) : State :=
  s.modLink (fun l =>
    { l with
      number := l.number + 1
      replyQueue := l.replyQueue ++
        [{ code := code, nak := a.nak, field := a.field, number := l.number + 1, data := a.data,
           restart := a.restart }] })

/-- The execution of the head of the command queue: it leaves the queue, the block `body` acts and answers, and
the reply is formed (R159). -/
def State.execute (s : State) (code : Byte) (body : State → State × Answer) : State :=
  let u := s.modLink (fun l => { l with commandQueue := l.commandQueue.tail })
  (body u).1.reply code (body u).2

/-- The command's frame is at the head of the queue, or arrives now as a well-formed frame at a hunting receiver and
is offered to the queue (R154, R158). -/
def State.bring (s : State) (payload : List Byte) : State :=
  if s.link.commandQueue.head? = some payload then s
  else if s.receiving && s.link.rxBuffer.isEmpty then
    s.modLink (fun l => { l with rxLine := .looking, rxGap := false }.enqueue payload)
  else s

/-- A command row: its command is brought to the queue, if it is not the head already, and executed if it is the
head and can be; else it waits in the queue (R158, R159). -/
def runCommand (payload : List Byte) (code : Byte) (body : State → State × Answer) (s : State) :
    Host.Outcome State Fault Refusal :=
  let u := s.bring payload
  .next ((if u.link.commandQueue.head? = some payload ∧ u.canExecute payload = true then
    u.execute code body else u).arbitrate)

/-- A block's operation behind the length check of the link controller (R159): `len` is the number of argument
bytes that R173 gives the command. -/
def withLength (len : Nat) (args : List Byte) (body : State → State × Answer) (s : State) : State × Answer :=
  if args.length = len then body s else (s, Answer.refuse .length)

/-- A command row with code `code` and `len` argument bytes (R159, R173). -/
def command (code : Byte) (len : Nat) (args : List Byte) (body : State → State × Answer) (s : State) :
    Host.Outcome State Fault Refusal :=
  runCommand (code :: args) code (withLength len args body) s

/-- The argument byte at position `k` of a command whose length has been checked. -/
def arg (args : List Byte) (k : Nat) : Byte := args.getD k 0

/-- UNKNOWN_COMMAND: NAK UNKNOWN with the received code, or with none for an empty payload (R159, R174). -/
def execUnknownCommand (payload : List Byte) (s : State) : Host.Outcome State Fault Refusal :=
  runCommand payload (payload.headD 0)
    (fun s => (s, { nak := some .unknown, field := if payload = [] then 1 else 0, data := [], restart := none })) s

end Sys2Proof.Machine
end

