-- ==== Sys2Proof/Machine/ChannelCommands.lean ====
section
/-! DEFINITION. Meanings of the channel and calibration commands AUX SET, CHANNEL SET, CHANNEL READ, CALIBRATE and TABLE READ (R24, R25, R35 to R38, R60, R61, R74). -/

namespace Sys2Proof.Machine

/-- A channel is bound to AUX. -/
def State.boundToAux (s : State) (c : Chan) : Bool := decide ((s.chan c).set.binding = some .aux)

/-- A running descriptor uses AUX: as its arm source, its gate mode, or the input of a used channel (R24). -/
def State.auxInUse (s : State) : Bool :=
  allEight.any (fun g =>
    let d := s.desc g
    d.running && (decide (d.active.arm = .aux) || decide (d.active.mode = .aux)
      || d.active.used.any (fun c => s.boundToAux c)))

/-- The AUX settings stored: a channel bound to AUX that becomes PARKED or ONLINE has its holdoff idle, and
readiness is judged anew (R24, R25, R28, R84). -/
def State.storeAux (s : State) (role : AuxRole) (activeHigh : Bool) : State :=
  let u : State := { s with aux := { role := role, activeHigh := activeHigh } }
  (u.forChans (fun c v =>
    if parks s.aux.role (s.chan c).set.binding = parks role (s.chan c).set.binding then v
    else v.modChan c (fun ch => { ch with holdoffEnd := none }))).judgeAll

/-- The data of the AUX SET reply (R24, R174). -/
def State.auxData (s : State) : List Byte :=
  [s.aux.role.code, auxPolarityCode s.aux.activeHigh, flagByte s.levels.aux] ++ s.chanStateBytes

/-- AUX SET (R24). -/
def auxSetBody (args : List Byte) (s : State) : State × Answer :=
  match readAuxRole (arg args 0), readAuxPolarity (arg args 1) with
  | none, _ => (s, Answer.invalid 1)
  | some _, none => (s, Answer.invalid 2)
  | some role, some pol =>
    if s.auxInUse then (s, Answer.refuse .busy)
    else if role ≠ .signal ∧ allChans.any (fun c => s.boundToAux c && s.calibrates c) = true then
      (s, Answer.refuse .busy)
    else
      let u := s.storeAux role pol
      (u, Answer.ack u.auxData)

def execAuxSet (args : List Byte) (s : State) : Host.Outcome State Fault Refusal :=
  command 0x20 2 args (auxSetBody args) s

/-- The settings that CHANNEL SET's fields give, holdoff and prescale clamped; none where a field is refused, with
the offset of that field (R35, R173). -/
def readSettings (args : List Byte) : Except Nat Settings :=
  match readBinding (arg args 1), readPolarity (arg args 2), readFlag (arg args 10) with
  | none, _, _ => .error 2
  | some _, none, _ => .error 3
  | some _, some _, none => .error 11
  | some b, some p, some i =>
    .ok { binding := b, polarity := p
          holdoff := BitVec.ofNat 16 (min (leValue ((args.drop 3).take 4)) 65535)
          prescale := min (arg args 7).toNat 20
          skew := BitVec.ofNat 16 (leValue ((args.drop 8).take 2))
          inhibitObey := i }

/-- The settings but the holdoff, which a busy channel keeps (R36). -/
def Settings.sameButHoldoff (a b : Settings) : Bool :=
  decide (a.binding = b.binding) && decide (a.polarity = b.polarity) && decide (a.prescale = b.prescale)
    && decide (a.skew = b.skew) && decide (a.inhibitObey = b.inhibitObey)

/-- The settings stored: a new binding or polarity makes the holdoff idle, and readiness is judged anew (R28, R37,
R84). -/
def State.storeSettings (s : State) (c : Chan) (new : Settings) : State :=
  (s.modChan c (fun ch =>
    { ch with
      set := new
      holdoffEnd := if new.binding = ch.set.binding ∧ new.polarity = ch.set.polarity then ch.holdoffEnd
        else none })).judgeAll

/-- CHANNEL SET (R35, R36). -/
def channelSetBody (args : List Byte) (s : State) : State × Answer :=
  match readChan (arg args 0) with
  | none => (s, Answer.refuse .range)
  | some c =>
    match readSettings args with
    | .error k => (s, Answer.invalid k)
    | .ok new =>
      if (s.chanState c = .calibrating ∨ s.inUse c = true) ∧ new.sameButHoldoff (s.chan c).set = false then
        (s, Answer.refuse .busy)
      else
        let u := s.storeSettings c new
        (u, Answer.ack (u.channelRecord c))

def execChannelSet (args : List Byte) (s : State) : Host.Outcome State Fault Refusal :=
  command 0x21 11 args (channelSetBody args) s

/-- CHANNEL READ (R38). -/
def channelReadBody (args : List Byte) (s : State) : State × Answer :=
  match readChan (arg args 0) with
  | none => (s, Answer.refuse .range)
  | some c => (s, Answer.ack (s.channelRecord c))

def execChannelRead (args : List Byte) (s : State) : Host.Outcome State Fault Refusal :=
  command 0x22 1 args (channelReadBody args) s

/-- The attempt begun by an accepted CALIBRATE (R61). -/
def Channel.startAttempt (ch : Channel) : Channel :=
  { ch with
    histogram := emptyHistogram
    attempt := { number := ch.attempt.number + 1, outcome := .inProgress, spanFound := 0, hits := 0 } }

/-- CALIBRATE accepted (R61). -/
def State.startCal (s : State) (c : Chan) : State :=
  { s.modChan c Channel.startAttempt with
    cal := some { chan := c, deadline := s.tb.coarse + Config.calDeadlineCycles } }

/-- CALIBRATE (R60, R61). -/
def calibrateBody (args : List Byte) (s : State) : State × Answer :=
  match readChan (arg args 0) with
  | none => (s, Answer.refuse .range)
  | some c =>
    if s.tb.state ≠ .run then (s, Answer.refuse .noTimebase)
    else if s.cal.isSome = true ∨ s.chanState c = .parked ∨ s.inUse c = true then (s, Answer.refuse .busy)
    else
      (s.startCal c, Answer.ack (chanByte c :: leBytes 2 ((s.chan c).attempt.number + 1).toNat
        ++ leBytes 8 (s.tb.coarse + Config.calDeadlineCycles).toNat))

def execCalibrate (args : List Byte) (s : State) : Host.Outcome State Fault Refusal :=
  command 0x30 1 args (calibrateBody args) s

/-- TABLE READ (R74). -/
def tableReadBody (args : List Byte) (s : State) : State × Answer :=
  match readChan (arg args 0) with
  | none => (s, Answer.refuse .range)
  | some c => (s, Answer.ack (s.tableData c))

def execTableRead (args : List Byte) (s : State) : Host.Outcome State Fault Refusal :=
  command 0x31 1 args (tableReadBody args) s

end Sys2Proof.Machine
end

