-- ==== Sys2Proof/Machine/GateCommands.lean ====
section
/-! DEFINITION. Meanings of the gate commands GATE WRITE, GATE COMMIT, GATE ENABLE, GATE STOP and GATE READ (R78 to R80, R83, R98, R99, R101, R176). -/

namespace Sys2Proof.Machine

/-- GATE WRITE (R78, R176). -/
def gateWriteBody (args : List Byte) (s : State) : State × Answer :=
  match readEight (arg args 0) with
  | none => (s, Answer.refuse .range)
  | some g =>
    if (s.desc g).commitPending then (s, Answer.refuse .busy)
    else
      match readCopy (arg args 1) (arg args 2) (arg args 3) (arg args 4) ((args.drop 5).take 8)
        (arg args 13) (arg args 14) (arg args 15) (arg args 16) (arg args 17) with
      | .error k => (s, Answer.invalid (2 + k))
      | .ok cp => (s.modDesc g (fun d => { d with staged := cp }), Answer.ack cp.bytes)

def execGateWrite (args : List Byte) (s : State) : Host.Outcome State Fault Refusal :=
  command 0x40 21 args (gateWriteBody args) s

/-- The gate mode kind is allowed for the function (R79, check 2). -/
def GateCopy.modeAllowed (cp : GateCopy) : Bool :=
  match cp.fn, cp.mode with
  | .none, _ => true
  | .totalize, .time _ => true
  | .totalize, .aux => true
  | .interval, .none => true
  | .freq, .time _ => true
  | .freq, .count _ => true
  | .period, .time _ => true
  | .period, .count _ => true
  | .ratio, .time _ => true
  | .ratio, .count _ => true
  | _, _ => false

/-- The secondary channel fits the function (R79, check 1). -/
def GateCopy.secondaryAllowed (cp : GateCopy) : Bool :=
  match cp.fn with
  | .interval => cp.secondary.isSome
  | .ratio => cp.secondary.isSome && decide (cp.secondary ≠ cp.primary)
  | _ => true

/-- The arm source fits the gate mode and the descriptor (R79, check 3). -/
def GateCopy.armAllowed (cp : GateCopy) (g : Desc) : Bool :=
  decide (cp.fn = .none)
  || (!(decide (cp.arm = .aux) && decide (cp.mode = .aux)) && decide (cp.arm ≠ .chain g))

/-- The first check of R79 that the staged copy fails, as the offset in a GATE WRITE payload of the field named
(R79, R174). -/
def GateCopy.commitFault (cp : GateCopy) (g : Desc) : Option Nat :=
  if cp.secondaryAllowed = false then some 4
  else if cp.modeAllowed = false then some 5
  else if cp.armAllowed g = false then some 14
  else none

/-- A commit that acts at once, in WAIT_ARM or ARMED: OFF under NONE, else WAIT_ARM under the new copy (R80). -/
def State.commitWaiting (s : State) (g : Desc) : State :=
  let u := s.modDesc g (fun d => { d.commit with timeoutAt := none })
  if (u.desc g).active.fn = .none then u.modDesc g (fun d => { d with state := .off })
  else (u.modDesc g (fun d => { d with state := .waitArm })).judge g

/-- A valid commit, by the descriptor's state (R80). -/
def State.commitNow (s : State) (g : Desc) : State :=
  match (s.desc g).state with
  | .off => s.modDesc g Descriptor.commit
  | .waitArm => s.commitWaiting g
  | .armed => s.commitWaiting g
  | .gateOpen => s.modDesc g (fun d => { d with commitPending := true })
  | .closing => s.modDesc g (fun d => { d with commitPending := true })

/-- GATE COMMIT (R79, R80). -/
def gateCommitBody (args : List Byte) (s : State) : State × Answer :=
  match readEight (arg args 0) with
  | none => (s, Answer.refuse .range)
  | some g =>
    if (s.desc g).commitPending then (s, Answer.refuse .busy)
    else
      match (s.desc g).staged.commitFault g with
      | some k => (s, Answer.invalid k)
      | none =>
        let u := s.commitNow g
        let d := u.desc g
        (u, Answer.ack ([d.state.code, flagByte d.commitPending] ++ d.active.bytes))

def execGateCommit (args : List Byte) (s : State) : Host.Outcome State Fault Refusal :=
  command 0x41 1 args (gateCommitBody args) s

/-- GATE ENABLE accepted: WAIT_ARM with gate number 0 and the last-gate mark clear, armed at once if ready and
IMMEDIATE (R83, R85). -/
def State.enable (s : State) (g : Desc) : State :=
  (s.modDesc g (fun d => { d with state := .waitArm, gateNumber := 0, lastGate := false })).judge g

/-- GATE ENABLE (R83). -/
def gateEnableBody (args : List Byte) (s : State) : State × Answer :=
  match readEight (arg args 0) with
  | none => (s, Answer.refuse .range)
  | some g =>
    if (s.desc g).state ≠ .off then (s, Answer.refuse .busy)
    else if (s.desc g).active.fn = .none then (s, Answer.invalid 2)
    else
      let u := s.enable g
      (u, Answer.ack [(u.desc g).state.code])

def execGateEnable (args : List Byte) (s : State) : Host.Outcome State Fault Refusal :=
  command 0x42 1 args (gateEnableBody args) s

/-- STOP FINISH at a gate in OPEN whose last-gate mark is clear (R98). The C_end of a TIME gate stays in the context, and
GATE READ goes on reporting it: the model's choice, since R98 does not say whether it moves (notes/assumptions/23.md). -/
def State.finishOpen (s : State) (g : Desc) : State :=
  let d := s.desc g
  let mark := fun (e : Descriptor) => { e with lastGate := true }
  let reach := fun (e : Descriptor) =>
    { e with lastGate := true, ctx := e.ctx.map (fun k => { k with endReached := true }) }
  match d.active.fn.edgeSynced, d.active.fn, d.active.mode with
  | true, _, .time _ =>
    s.modDesc g (fun e => { reach e with state := .closing, timeoutAt := e.active.startTimeout s.tb.coarse })
  | true, _, .count _ => s.modDesc g reach
  | false, .totalize, .time _ =>
    (s.modDesc g mark).closeGate g { completion := .stopped, stamp := none, sample := s.sampleNow }
  | _, _, _ => s.modDesc g mark

/-- STOP FINISH, by the descriptor's state; while the last-gate mark is set, a second one changes nothing (R98). -/
def State.finish (s : State) (g : Desc) : State :=
  if (s.desc g).lastGate then s
  else
    match (s.desc g).state with
    | .off => s
    | .waitArm => s.modDesc g (fun d => { d with state := .off, timeoutAt := none })
    | .armed => s.modDesc g (fun d => { d with state := .off, timeoutAt := none })
    | .gateOpen => s.finishOpen g
    | .closing => s.modDesc g (fun d => { d with lastGate := true })

/-- STOP ABORT: OFF at once, without a record, a pending commit applied (R81, R99). -/
def State.abort (s : State) (g : Desc) : State :=
  if (s.desc g).state = .off then s else (s.modDesc g Descriptor.applyPending).enterOff g

/-- GATE STOP: mode 1 is FINISH, mode 2 ABORT (R98, R99, R173). -/
def gateStopBody (args : List Byte) (s : State) : State × Answer :=
  match readEight (arg args 0) with
  | none => (s, Answer.refuse .range)
  | some g =>
    if arg args 1 = 1 then
      let u := s.finish g
      (u, Answer.ack [(u.desc g).state.code])
    else if arg args 1 = 2 then
      let u := s.abort g
      (u, Answer.ack ((u.desc g).state.code :: (u.desc g).active.bytes))
    else (s, Answer.invalid 2)

/-- GATE_STOP_FINISH (R98). -/
def execGateStopFinish (args : List Byte) (s : State) : Host.Outcome State Fault Refusal :=
  command 0x43 2 args (gateStopBody args) s

/-- GATE_STOP_ABORT (R99). -/
def execGateStopAbort (args : List Byte) (s : State) : Host.Outcome State Fault Refusal :=
  command 0x43 2 args (gateStopBody args) s

/-- GATE READ (R101). -/
def gateReadBody (args : List Byte) (s : State) : State × Answer :=
  match readEight (arg args 0) with
  | none => (s, Answer.refuse .range)
  | some g => (s, Answer.ack (s.desc g).readData)

def execGateRead (args : List Byte) (s : State) : Host.Outcome State Fault Refusal :=
  command 0x44 1 args (gateReadBody args) s

end Sys2Proof.Machine
end

