-- ==== Sys2Proof/Machine/Gates.lean ====
section
/-! DEFINITION. Meanings of the gate events: the nominal end, the timeout and the forming of a record that waited for a count (R91, R92, R95 to R97). -/

namespace Sys2Proof.Machine

/-- GATE_NOMINAL_END: expiry of C_end in OPEN; a gate already closed or in CLOSING has none to act on (R91). -/
def execGateNominalEnd (g : Desc) (s : State) : Host.Outcome State Fault Refusal :=
  s.event (fun s => s.expiry (.nominalEnd g))

/-- GATE_TIMEOUT: expiry of the descriptor's timeout instant; after a close event it has no gate to act on (R92,
R94). -/
def execGateTimeout (g : Desc) (s : State) : Host.Outcome State Fault Refusal :=
  s.event (fun s => s.expiry (.timeout g))

/-- RECORD_FORMATION: at the first core tick after the instant of the close event the record is formed (R92). -/
def execRecordFormation (g : Desc) (s : State) : Host.Outcome State Fault Refusal :=
  s.event (fun s => s.expiry (.record g))

end Sys2Proof.Machine
end

