-- ==== Sys2Proof/Machine/Inputs.lean ====
section
/-! DEFINITION. Meanings of the input events: an edge from its closing tick through qualification, counting, stamping and delivery, and the expiries of holdoff and dead time (R21, R23, R30 to R33, R41 to R53, R71, R141). -/

namespace Sys2Proof.Machine

/-! ## Streaming a stamp (R141) -/

/-- The free entries of the FIFO (R138). -/
def StreamUnit.free (u : StreamUnit) : Nat := Config.fifoSize - u.fifo.length

/-- The stream entry of a stamped event (R140). -/
def Stamp.entry (st : Stamp) : Entry := .stamp st.chan st.n st.t st.flags

/-- A stamp offered to the FIFO: appended, appended behind a GAP, or dropped and counted (R141, R143). -/
def StreamUnit.offer (u : StreamUnit) (st : Stamp) : StreamUnit :=
  let d := u.drops[st.chan]
  if d = 0 then
    if 1 ≤ u.free then { u with fifo := u.fifo ++ [st.entry] }
    else { u with drops := u.drops.set st.chan.val 1 st.chan.isLt }
  else if 2 ≤ u.free then
    { u with fifo := u.fifo ++ [.gap st.chan d, st.entry], drops := u.drops.set st.chan.val 0 st.chan.isLt }
  else { u with drops := u.drops.set st.chan.val (satInc Config.sat32 d) st.chan.isLt }

/-! ## Stamping (R42 to R49) -/

/-- The timestamp of a stamp: C × 1024 − fine + skew, modulo 2^64 (R47). -/
def composeTime (c : Coarse) (fine : Nat) (skew : BitVec 16) : Time :=
  instantTime c - BitVec.ofNat 64 fine + skew.signExtend 64

/-- The stamp taken of channel `c` at a closing tick with raw bin `b`: everything is fixed from the state there
(R44, R45, R48, R49). -/
def State.stampOf (s : State) (c : Chan) (tick : Coarse) (b : Bin) : Stamp :=
  let ch := s.chan c
  { chan := c, n := ch.n, t := composeTime tick ch.table[b] ch.set.skew,
    flags := stampFlags s.tb ch.calibrated, coarse := tick }

/-- The interpolator after a stamp: dead time runs, the raw bin is kept, an out-of-span stamp is counted, and an
advice that falls due is spent (R42, R44, R46, R71). -/
def Channel.stamped (ch : Channel) (tick : Coarse) (b : Bin) : Channel :=
  let out := decide (ch.span ≤ b.val)
  let count := if out then satInc Config.sat16 ch.outOfSpan else ch.outOfSpan
  { ch with
    deadEnd := some (tick + Config.deadCycles)
    lastBin := some b
    outOfSpan := count
    adviceArmed := ch.adviceArmed && !(out && decide (count = Config.adviseAt)) }

/-- The stamp brings the out-of-span count to the advice threshold while the advice is armed (R71). -/
def Channel.advises (ch : Channel) (b : Bin) : Bool :=
  ch.adviceArmed && decide (ch.span ≤ b.val) && decide (satInc Config.sat16 ch.outOfSpan = Config.adviseAt)

/-- The interpolator accepts an edge: the dead time is idle or over (R42). -/
def Channel.accepts (ch : Channel) (tick : Coarse) : Bool :=
  match ch.deadEnd with
  | none => true
  | some x => atOrAfter tick x

/-- A stamp taken: the interpolator moves on, an advice that falls due is posted, and a stream-enabled channel's stamp is
offered to the FIFO (R44, R46, R52, R71, R139). -/
def State.noteStamp (s : State) (st : Stamp) (b : Bin) : State :=
  let ch := s.chan st.chan
  let u := s.modChan st.chan (fun ch => ch.stamped st.coarse b)
  let v := if ch.advises b then u.post (.advise st.chan) else u
  if ch.streamEnable then v.modStream (fun q => q.offer st) else v

/-! ## Qualification and counting (R30 to R33) -/

/-- The edge is an edge of the channel's polarity (R30). -/
def Polarity.selects (p : Polarity) (rising : Bool) : Bool :=
  match p with
  | .both => true
  | .rise => rising
  | .fall => !rising

/-- Edges of the channel are inhibited now (R31). -/
def State.inhibited (s : State) (c : Chan) : Bool :=
  (s.chan c).set.inhibitObey && decide (s.aux.role = .inhibit) && s.auxActive

/-- The holdoff lets an edge of coarse count `tick` pass (R30). -/
def Channel.holdoffPasses (ch : Channel) (tick : Coarse) : Bool :=
  match ch.holdoffEnd with
  | none => true
  | some x => atOrAfter tick x

/-- The edge of `input` is qualified for channel `c` (R30). -/
def State.qualifies (s : State) (c : Chan) (input : PhysIn) (rising : Bool) (tick : Coarse) : Bool :=
  decide ((s.chan c).set.binding = some input) && decide (s.chanState c ≠ .parked)
  && (s.chan c).set.polarity.selects rising && !s.inhibited c && (s.chan c).holdoffPasses tick

/-- A qualified edge is counted: the count and the holdoff of the channel, and the samples taken at this tick
(R30, R32, R34). -/
def State.countEdge (s : State) (c : Chan) (tick : Coarse) : State :=
  (s.modChan c (fun ch =>
    { ch with
      n := ch.n + 1
      holdoffEnd := if ch.set.holdoff = 0 then none else some (tick + ch.set.holdoff.zeroExtend 54) })).forEight
    (fun g u => u.modDesc g (fun d => d.note c tick))

/-- The counted edge is offered for stamping: its index is a multiple of 2^k (R33). -/
def Channel.offersEdge (ch : Channel) : Bool := decide (ch.n.toNat % 2 ^ ch.set.prescale = 0)

/-- The stamp that an edge of `input` gives on channel `c`: it is counted, offered by its index, and accepted by the
interpolator of an ONLINE channel (R30, R33, R42, R43). -/
def State.stampTaken (s : State) (c : Chan) (input : PhysIn) (rising : Bool) (tick : Coarse) (b : Bin) : Option Stamp :=
  let u := s.countEdge c tick
  if s.qualifies c input rising tick && (u.chan c).offersEdge && decide (u.chanState c = .online)
      && (u.chan c).accepts tick then
    some (u.stampOf c tick b)
  else none

/-- An edge of `input` at channel `c`, but for the delivery of its stamp to the descriptors (R30, R33). -/
def State.channelEdge (s : State) (c : Chan) (input : PhysIn) (rising : Bool) (tick : Coarse) (b : Bin) : State :=
  if s.qualifies c input rising tick then
    match s.stampTaken c input rising tick b with
    | some st => (s.countEdge c tick).noteStamp st b
    | none => s.countEdge c tick
  else s

/-! ## Delivery (R51, R53, R89) -/

/-- An AUX event offered to the eight descriptors. No two of them can tell the order: what it brings about at one of them
reaches no other before the row ends (R86, R89, R119). -/
def State.deliver (s : State) (ev : MenEvent) (m : Sample) : State := s.forEight (fun g u => u.offer g ev m)

/-- The order in which the descriptors take the stamps of one tick: the takings listed in `first`, then the rest, channel
by channel in the order `chans` (R53, R89). -/
def takingsOf (first : List (Chan × Desc)) (chans : List Chan) : List (Chan × Desc) :=
  takingOrder first (chans.flatMap (fun c => allEight.map (fun g => (c, g))))

/-- The stamp of channel `p.1`, if the edge gave one, offered to descriptor `p.2` (R51, R89). -/
def State.taking (s : State) (stamps : Chan → Option Stamp) (tick : Coarse) (p : Chan × Desc) : State :=
  match stamps p.1 with
  | some st => s.offer p.2 (.stamp st) (s.sampleAt tick)
  | none => s

/-- The AUX event of an AUX edge under the role in force; an active edge is the rising one for HIGH (R22, R23). -/
def Aux.event (a : Aux) (rising : Bool) : Option MenEvent :=
  match a.role, rising == a.activeHigh with
  | .arm, true => some .auxArm
  | .gate, true => some .auxOpen
  | .gate, false => some .auxClose
  | _, _ => none

/-- An edge processed in RUN or RELOCK, the counter at its closing tick: an AUX event, an edge of every channel bound to
the input, and the stamps it gives taken by the descriptors (R21, R23, R51, R89). -/
def State.processEdge (s : State) (input : PhysIn) (rising : Bool) (tick : Coarse) (bins : Vector Bin 4)
    (chans : List Chan) (takings : List (Chan × Desc)) : State :=
  let order := takingOrder chans allChans
  let u := match input, s.aux.event rising with
    | .aux, some ev => s.deliver ev (s.sampleAt tick)
    | _, _ => s
  let v := order.foldl (fun v c => v.channelEdge c input rising tick bins[c]) u
  (takingsOf takings order).foldl
    (fun w p => w.taking (fun c => s.stampTaken c input rising tick bins[c]) tick p) v

/-- INPUT_EDGE: the level is followed at all times; the edge is processed if its closing tick falls in RUN or RELOCK, the
counter having moved on to that tick (R6, R7, R21). -/
def execInputEdge (input : PhysIn) (rising : Bool) (tick : Coarse) (bins : Vector Bin 4) (chans : List Chan)
    (takings : List (Chan × Desc)) (s : State) : Host.Outcome State Fault Refusal :=
  let u : State := { s with levels := s.levels.put input rising }
  .next (if s.power = .ready ∧ s.tb.closesAt tick = true then
    ((u.advanceTo tick).processEdge input rising tick bins chans takings).arbitrate
  else u)

/-- HOLDOFF_EXPIRY: the channel's running holdoff reaches its end instant and is idle (R7, R30). -/
def execHoldoffExpiry (c : Chan) (s : State) : Host.Outcome State Fault Refusal :=
  s.event (fun s => s.expiry (.holdoff c))

/-- DEAD_TIME_EXPIRY: the interpolator's running dead time reaches its end instant and is idle (R7, R42). -/
def execDeadTimeExpiry (c : Chan) (s : State) : Host.Outcome State Fault Refusal :=
  s.event (fun s => s.expiry (.deadTime c))

end Sys2Proof.Machine
end

