-- ==== Sys2Proof/Machine/PartCommands.lean ====
section
/-! DEFINITION. Meanings of the commands that concern the part as a whole: IDENTIFY, STATUS and RESTART (R168 to R170). -/

namespace Sys2Proof.Machine

/-- IDENTIFY (R168). -/
def execIdentify (args : List Byte) (s : State) : Host.Outcome State Fault Refusal :=
  command 0x01 0 args (fun s => (s, Answer.ack identifyData)) s

/-- The reset-cause record emptied and the four link counters cleared (R165, R167, R169). -/
def State.clearStatus (s : State) : State :=
  { s.modLink (fun l => { l with crcErrors := 0, lengthErrors := 0, truncated := 0, overruns := 0 }) with
    causes := { power := false, full := false, brk := false, measure := false } }

/-- STATUS: the contents are taken before the clear (R169). -/
def statusBody (args : List Byte) (s : State) : State × Answer :=
  match readFlag (arg args 0) with
  | none => (s, Answer.invalid 1)
  | some clear => (if clear then s.clearStatus else s, Answer.ack s.statusData)

def execStatus (args : List Byte) (s : State) : Host.Outcome State Fault Refusal :=
  command 0x02 1 args (statusBody args) s

/-- RESTART: accepted, it stops the execution of commands and waits for the end of its ACK (R159, R170). -/
def restartBody (args : List Byte) (s : State) : State × Answer :=
  match readRestartKind (arg args 0) with
  | none => (s, Answer.invalid 1)
  | some kind =>
    (s.modLink (fun l => { l with restart := some kind }),
      { nak := none, field := 0, data := [kind.code], restart := some kind })

/-- RESTART_MEASURE (R170). -/
def execRestartMeasure (args : List Byte) (s : State) : Host.Outcome State Fault Refusal :=
  command 0x03 1 args (restartBody args) s

/-- RESTART_FULL (R170). -/
def execRestartFull (args : List Byte) (s : State) : Host.Outcome State Fault Refusal :=
  command 0x03 1 args (restartBody args) s

end Sys2Proof.Machine
end

