-- ==== Sys2Proof/Machine/Restart.lean ====
section
/-! DEFINITION. Resets and restarts: what each kind leaves in every block, with the meanings of the reset events, the link break and the end of a transmission (R20, R39, R56, R70, R75, R103, R137, R151, R157, R164, R166, R167, R170, R171). -/

namespace Sys2Proof.Machine

/-! ## The blocks at a restart -/

/-- A channel at RESTART MEASURE: its count is cleared and its holdoff idle (R39, R56, R75). -/
def Channel.measureReset (ch : Channel) : Channel := { ch with n := 0, holdoffEnd := none }

/-- Channel `c` at RESTART FULL: its settings take their power-on values too, and its dead time is idle; its table set,
histogram, attempts, last raw bin and out-of-span count stay (R39, R55, R56, R75). -/
def Channel.fullReset (ch : Channel) (c : Chan) : Channel :=
  { ch with set := Settings.reset c, streamEnable := false, n := 0, holdoffEnd := none, deadEnd := none }

/-- The channels after `f`. -/
def State.mapChans (s : State) (f : Chan → Channel → Channel) : State :=
  s.forChans (fun c u => u.modChan c (f c))

/-- The engine at a restart: every descriptor in OFF, its copies those that `copies` gives (R103). -/
def State.resetDescs (s : State) (f : Descriptor → Descriptor) : State :=
  s.forEight (fun g u => u.modDesc g f)

/-- The result store and the stream unit after every kind of reset (R137, R151). -/
def State.resetStore (s : State) : State :=
  { s with slots := Vector.replicate 8 Slot.reset, stream := StreamUnit.reset }

/-- The queues of the link emptied and a pending restart gone; a frame on the line without the mark of a RESTART's
ACK is sent to its end and starts nothing (R166, R170). -/
def Link.emptyQueues (l : Link) : Link :=
  { l with commandQueue := [], replyQueue := [], noticeQueue := [], restart := none,
           tx := l.tx.map (fun f => { f with restart := none }) }

/-- The link controller at RESTART FULL: the receiver hunts, the mask, the counters and the execution number take
their reset values (R166). -/
def Link.fullReset (l : Link) : Link := { Link.reset with rxLine := l.rxLine, tx := l.emptyQueues.tx }

/-- RESTART MEASURE takes effect (R170 with R39, R56, R70, R75, R103, R137, R151, R166, R167). -/
def State.restartMeasure (s : State) : State :=
  let u := ((s.dropCal .restart).mapChans (fun _ ch => ch.measureReset)).resetDescs
    (fun d => Descriptor.idle d.staged d.active)
  let v := u.resetStore.modLink Link.emptyQueues
  { v with causes := { v.causes with measure := true } }

/-- RESTART FULL in every block; the reset-cause record is the caller's (R20, R39, R56, R70, R75, R103, R137, R151, R166). -/
def State.restartFull (s : State) : State :=
  let u := ((s.dropCal .restart).mapChans (fun c ch => ch.fullReset c)).resetDescs
    (fun _ => Descriptor.reset)
  { u.resetStore.modLink Link.fullReset with
    tb := Timebase.reset, aux := { role := .arm, activeHigh := true } }

/-- A restart of the given kind takes effect (R167, R170). -/
def State.restartNow (s : State) : RestartKind → State
  | .measure => s.restartMeasure
  | .full => { s.restartFull with causes := { s.causes with full := true } }

/-! ## Meanings -/

/-- POWER_ON_RESET: every block takes its power-on values, a frame on LNK_TX is cut, and the record is exactly
{POWER}; the part is held until RST_N goes high. The levels of the inputs and LNKCLK are pins (R167, R171). -/
def execPowerOnReset (s : State) : Host.Outcome State Fault Refusal :=
  .next { State.reset with power := .held, levels := s.levels, lnkclk := s.lnkclk, pending := s.pending }

/-- RST_N_RELEASE: the start-up interval begins; without a power-on hold there is none to end (R171). -/
def execRstNRelease (s : State) : Host.Outcome State Fault Refusal :=
  .next (if s.power = .held then { s with power := .startUp } else s)

/-- START_UP_END: the receiver hunts, the transmitter is free and the monitor's first window begins (R3, R171). What the
receiver then takes LNK_RX to have been is the model's choice: at mark, as the power-on reset left it
(notes/assumptions/1.md), or unknown, so that it waits for mark, if LNKCLK has returned since
(notes/assumptions/32.md). -/
def execStartUpEnd (s : State) : Host.Outcome State Fault Refusal :=
  .next (if s.power = .startUp then { s with power := .ready, tb := s.tb.newWindow } else s)

/-- LINK_BREAK: a RESTART FULL at once, with BREAK in the record; a frame on the line goes on to its end. No further
break is detected until LNK_RX has returned to mark (R157, R167, R170). -/
def execLinkBreak (s : State) : Host.Outcome State Fault Refusal :=
  s.event (fun s =>
    if s.link.rxLine = RxLine.broken then s
    else
      { s.restartFull.modLink (fun l => { l with rxLine := .broken }) with
        causes := { s.causes with brk := true } })

/-- The frame on the line ends: the restart of a RESTART ACK takes effect, and the transmitter is free (R164, R170). -/
def State.frameDone (s : State) (f : TxFrame) : State :=
  let u := s.modLink (fun l => { l with tx := none })
  match f.restart with
  | some kind => u.restartNow kind
  | none => u

/-- TRANSMIT_END: the last byte of the frame has been sent, and the arbiter picks the next. While LNKCLK is stopped no
frame ends (R153, R164). -/
def execTransmitEnd (s : State) : Host.Outcome State Fault Refusal :=
  s.event (fun s =>
    match s.link.tx with
    | some f => if s.lnkclk then s.frameDone f else s
    | none => s)

end Sys2Proof.Machine
end

