-- ==== Sys2Proof/Machine/StoreCommands.lean ====
section
/-! DEFINITION. Meanings of the slot, stream and notice commands: SLOT READ, SLOT HOLD, SLOT RELEASE, STATS CLEAR, STREAM SET, STREAM CLEAR and NOTICE MASK (R127, R128, R133, R134, R139, R148, R163). -/

namespace Sys2Proof.Machine

/-- SLOT READ (R134). -/
def slotReadBody (args : List Byte) (s : State) : State × Answer :=
  match readEight (arg args 0), readFlag (arg args 1) with
  | none, _ => (s, Answer.refuse .range)
  | some _, none => (s, Answer.invalid 2)
  | some k, some clear =>
    (if clear then s.modSlot k (fun sl => { sl with lost := false }) else s, Answer.ack (s.slotData k))

def execSlotRead (args : List Byte) (s : State) : Host.Outcome State Fault Refusal :=
  command 0x50 2 args (slotReadBody args) s

/-- `f` at each slot of a set, in increasing number. -/
def State.forSlots (s : State) (set : Byte) (f : SlotId → State → State) : State :=
  s.forEight (fun k u => if set.getLsbD k.val then f k u else u)

/-- SLOT HOLD (R127). A set whose second byte is not 0 names a slot that does not exist (R172). -/
def slotHoldBody (args : List Byte) (s : State) : State × Answer :=
  if arg args 1 ≠ 0 then (s, Answer.refuse .range)
  else
    let u := s.forSlots (arg args 0) (fun k v => v.modSlot k (fun sl => { sl with held := true }))
    (u, Answer.ack (slotSetBytes u.heldSet ++ slotSetBytes u.waitingSet))

def execSlotHold (args : List Byte) (s : State) : Host.Outcome State Fault Refusal :=
  command 0x51 2 args (slotHoldBody args) s

/-- The slots of a set whose pending record a release presents (R128). -/
def State.presentedSet (s : State) (set : Byte) : BitVec 8 :=
  slotSet (fun k => set.getLsbD k.val && (s.slot k).held && (s.slot k).waiting.isSome)

/-- SLOT RELEASE (R128). -/
def slotReleaseBody (args : List Byte) (s : State) : State × Answer :=
  if arg args 1 ≠ 0 then (s, Answer.refuse .range)
  else
    let u := s.forSlots (arg args 0) (fun k v => v.release k)
    (u, Answer.ack (slotSetBytes (s.presentedSet (arg args 0)) ++ slotSetBytes u.heldSet))

def execSlotRelease (args : List Byte) (s : State) : Host.Outcome State Fault Refusal :=
  command 0x52 2 args (slotReleaseBody args) s

/-- STATS CLEAR (R133). -/
def statsClearBody (args : List Byte) (s : State) : State × Answer :=
  if arg args 1 ≠ 0 then (s, Answer.refuse .range)
  else
    (s.forSlots (arg args 0) (fun k v => v.modSlot k (fun sl => { sl with stats := Stats.empty })),
      Answer.ack (slotSetBytes (arg args 0)))

def execStatsClear (args : List Byte) (s : State) : Host.Outcome State Fault Refusal :=
  command 0x53 2 args (statsClearBody args) s

/-- The data of the STREAM SET reply (R139, R174). -/
def State.streamData (s : State) : List Byte :=
  chanSetByte (fun c => (s.chan c).streamEnable) :: leBytes 2 s.stream.fifo.length ++ s.stream.dropBytes

/-- STREAM SET: a set with one of bits 4 to 7 names a channel that does not exist (R139, R172). -/
def streamSetBody (args : List Byte) (s : State) : State × Answer :=
  if 16 ≤ (arg args 0).toNat then (s, Answer.refuse .range)
  else
    let u := s.forChans (fun c v =>
      v.modChan c (fun ch => { ch with streamEnable := (arg args 0).getLsbD c.val }))
    (u, Answer.ack u.streamData)

def execStreamSet (args : List Byte) (s : State) : Host.Outcome State Fault Refusal :=
  command 0x60 1 args (streamSetBody args) s

/-- The stamps of channel `c` that an entry stands for (R148, R149). -/
def Entry.stampsOf (c : Chan) : Entry → Nat
  | .stamp d _ _ _ => if d = c then 1 else 0
  | .gap d k => if d = c then k else 0

/-- The stamps of channel `c` that entries stand for. -/
def stampsIn (c : Chan) (entries : List Entry) : Nat := (entries.map (Entry.stampsOf c)).sum

/-- The stamps of channel `c` that a STREAM CLEAR discards, saturating (R148). -/
def StreamUnit.discarded (u : StreamUnit) (c : Chan) : Nat :=
  min Config.sat32 (stampsIn c u.fifo + u.drops[c])

/-- STREAM CLEAR (R148). -/
def streamClearBody (s : State) : State × Answer :=
  (s.modStream (fun u => { u with fifo := [], drops := Vector.replicate 4 0 }),
    Answer.ack (leBytes 2 s.stream.fifo.length
      ++ allChans.flatMap (fun c => leBytes 4 (s.stream.discarded c)) ++ leBytes 2 s.stream.frameNumber.toNat))

def execStreamClear (args : List Byte) (s : State) : Host.Outcome State Fault Refusal :=
  command 0x61 0 args streamClearBody s

/-- NOTICE MASK: the mask is replaced, and the entries it would not queue are removed (R163). -/
def noticeMaskBody (args : List Byte) (s : State) : State × Answer :=
  if arg args 2 ≠ 0 then (s, Answer.refuse .range)
  else
    let m := readMask (arg args 0) (arg args 1)
    let kept := s.link.noticeQueue.filter (fun e => m.admits e.key)
    (s.modLink (fun l => { l with mask := m, noticeQueue := kept }),
      Answer.ack ([m.kindByte, m.slots, 0, BitVec.ofNat 8 (s.link.noticeQueue.length - kept.length),
        BitVec.ofNat 8 kept.length]))

def execNoticeMask (args : List Byte) (s : State) : Host.Outcome State Fault Refusal :=
  command 0x70 3 args (noticeMaskBody args) s

end Sys2Proof.Machine
end

