-- ==== Sys2Proof/Machine/TbCommands.lean ====
section
/-! DEFINITION. Meanings of the timebase commands TB CONFIG, TB START, TB STOP and TB SELECT (R2, R8, R10, R11, R19). -/

namespace Sys2Proof.Machine

/-- ACK with the timebase snapshot, taken after the command has acted (R19). -/
def State.ackSnapshot (s : State) : State × Answer := (s, Answer.ack s.tb.snapshot)

/-- The configuration stored; a change of the reference frequency restarts the monitor (R2). -/
def Timebase.configure (tb : Timebase) (sel : Source) (freq : RefFreq) (detect : Bool) (action : LossAction)
    (revert : Bool) : Timebase :=
  let t := { tb with selected := sel, refFreq := freq, lossDetect := detect, lossAction := action,
                     autoRevert := revert }
  if freq = tb.refFreq then t else { t.newWindow with monitor := .absent, runCount := 0 }

/-- TB CONFIG, its fields checked in the order of R1 (R2). -/
def tbConfigBody (args : List Byte) (s : State) : State × Answer :=
  if s.tb.state ≠ .halt then (s, Answer.refuse .busy)
  else
    match readSource (arg args 0), readRefFreq (arg args 1), readFlag (arg args 2),
      readLossAction (arg args 3), readFlag (arg args 4) with
    | none, _, _, _, _ => (s, Answer.invalid 1)
    | some _, none, _, _, _ => (s, Answer.invalid 2)
    | some _, some _, none, _, _ => (s, Answer.invalid 3)
    | some _, some _, some _, none, _ => (s, Answer.invalid 4)
    | some _, some _, some _, some _, none => (s, Answer.invalid 5)
    | some sel, some freq, some detect, some action, some revert =>
      (s.modTb (fun tb => tb.configure sel freq detect action revert)).ackSnapshot

def execTbConfig (args : List Byte) (s : State) : Host.Outcome State Fault Refusal :=
  command 0x10 5 args (tbConfigBody args) s

/-- TB START accepted: ACQUIRE on the selected source; the coarse counter, the edge counts and the holdoff and
dead-time states are cleared (R8, R39, R56). -/
def State.startTb (s : State) : State :=
  let u := (s.modTb (fun tb =>
    { tb with state := .acquire, inForce := tb.selected, holdover := false, coarse := 0, ticked := false,
              phaseTimer := some Config.acquireCycles })).postTimebase .start
  u.forChans (fun c v => v.modChan c (fun ch => { ch with n := 0, holdoffEnd := none, deadEnd := none }))

/-- TB START (R8). -/
def tbStartBody (s : State) : State × Answer :=
  if s.tb.state ≠ .halt then (s, Answer.refuse .busy)
  else if s.tb.selected = .ext ∧ s.tb.monitor ≠ .good then (s, Answer.refuse .noRef)
  else s.startTb.ackSnapshot

def execTbStart (args : List Byte) (s : State) : Host.Outcome State Fault Refusal :=
  command 0x11 0 args tbStartBody s

/-- TB STOP (R10). -/
def tbStopBody (s : State) : State × Answer :=
  if s.tb.state = .halt then s.ackSnapshot else (s.enterHalt .stop).ackSnapshot

def execTbStop (args : List Byte) (s : State) : Host.Outcome State Fault Refusal :=
  command 0x12 0 args tbStopBody s

/-- TB SELECT in RUN, by the argument and the source in force (R11). -/
def State.selectInRun (s : State) (src : Source) : State × Answer :=
  let sel := s.modTb (fun tb => { tb with selected := src })
  match src, s.tb.inForce with
  | .ext, .ext => s.ackSnapshot
  | .ext, _ =>
    if s.tb.monitor = .good then (sel.beginRelock .ext .select).ackSnapshot else (s, Answer.refuse .noRef)
  | _, .ext => (sel.beginRelock .int .select).ackSnapshot
  | _, _ =>
    if s.tb.holdover then
      ((sel.modTb (fun tb => { tb with holdover := false })).postTimebase .select).ackSnapshot
    else s.ackSnapshot

/-- TB SELECT, by the state of the timebase (R11). -/
def tbSelectBody (args : List Byte) (s : State) : State × Answer :=
  match readSource (arg args 0), s.tb.state with
  | none, _ => (s, Answer.invalid 1)
  | some src, .halt => (s.modTb (fun tb => { tb with selected := src })).ackSnapshot
  | some _, .acquire => (s, Answer.refuse .busy)
  | some _, .relock => (s, Answer.refuse .busy)
  | some src, .run => s.selectInRun src

def execTbSelect (args : List Byte) (s : State) : Host.Outcome State Fault Refusal :=
  command 0x13 1 args (tbSelectBody args) s

end Sys2Proof.Machine
end

