-- ==== Sys2Proof/Machine/Timebase.lean ====
section
/-! DEFINITION. Meanings of the timebase events: the end of a monitor window, a starvation, a reference edge and the expiries of the phase timer (R3, R4, R9, R12). -/

namespace Sys2Proof.Machine

/-- MONITOR_WINDOW_END: the window is judged, the monitor updated and a new window begun (R3, R4). -/
def execMonitorWindowEnd (s : State) : Host.Outcome State Fault Refusal :=
  s.event (fun s =>
    let u := s.modTb Timebase.newWindow
    if s.tb.windowGood then u.goodWindow else u.monitorAbsent)

/-- STARVATION: the window in progress is marked bad and the monitor enters ABSENT at once (R3, R4). -/
def execStarvation (s : State) : Host.Outcome State Fault Refusal :=
  s.event (fun s => (s.modTb (fun tb => { tb with windowStarved := true })).monitorAbsent)

/-- An edge of REF_IN through the divider, ÷1 at 10 MHz and ÷2 at 20 MHz; the divided edge is counted in the window
in progress (R1, R3). -/
def Timebase.referenceEdge (tb : Timebase) : Timebase :=
  match tb.refFreq, tb.dividerHalf with
  | .mhz20, false => { tb with dividerHalf := true }
  | .mhz20, true => { tb with dividerHalf := false, windowCount := tb.windowCount + 1 }
  | .mhz10, _ => { tb with windowCount := tb.windowCount + 1 }

/-- REFERENCE_EDGE: an edge of REF_IN reaches the monitor through the divider (R3). -/
def execReferenceEdge (s : State) : Host.Outcome State Fault Refusal :=
  s.event (fun s => s.modTb Timebase.referenceEdge)

/-- ACQUIRE ends: RUN is entered with the coarse counter at 0, and ready IMMEDIATE descriptors arm at instant 0
(R9, R85). -/
def State.acquireDone (s : State) : State :=
  ((s.modTb (fun tb => { tb with state := .run, phaseTimer := none, coarse := 0, ticked := false })).postTimebase
    .acquired).judgeAll

/-- ACQUIRE_END: expiry of the phase timer in ACQUIRE (R9); in another state no such timer runs. -/
def execAcquireEnd (s : State) : Host.Outcome State Fault Refusal :=
  s.event (fun s => if s.tb.state = .acquire then s.acquireDone else s)

/-- RELOCK_END: expiry of the phase timer in RELOCK (R12); in another state no such timer runs. -/
def execRelockEnd (s : State) : Host.Outcome State Fault Refusal :=
  s.event (fun s =>
    if s.tb.state = .relock then
      (s.modTb (fun tb => { tb with state := .run, phaseTimer := none })).postTimebase .relocked
    else s)

end Sys2Proof.Machine
end

