-- ==== Sys2Proof/Machine/Dispatch.lean ====
section
/-! DEFINITION. One arm for each row of the opcode table, each one call of the row's meaning. -/

namespace Sys2Proof.Machine

def exec (i : Instr) (s : State) : Host.Outcome State Fault Refusal :=
  match i with
  | .powerOnReset => Sys2Proof.Machine.execPowerOnReset s
  | .startUpEnd => Sys2Proof.Machine.execStartUpEnd s
  | .monitorWindowEnd => Sys2Proof.Machine.execMonitorWindowEnd s
  | .starvation => Sys2Proof.Machine.execStarvation s
  | .acquireEnd => Sys2Proof.Machine.execAcquireEnd s
  | .relockEnd => Sys2Proof.Machine.execRelockEnd s
  | .inputEdge input rising tick bins chans takings => Sys2Proof.Machine.execInputEdge input rising tick bins chans takings s
  | .holdoffExpiry c => Sys2Proof.Machine.execHoldoffExpiry c s
  | .deadTimeExpiry c => Sys2Proof.Machine.execDeadTimeExpiry c s
  | .calHit tick bin => Sys2Proof.Machine.execCalHit tick bin s
  | .calDeadline => Sys2Proof.Machine.execCalDeadline s
  | .gateNominalEnd g => Sys2Proof.Machine.execGateNominalEnd g s
  | .gateTimeout g => Sys2Proof.Machine.execGateTimeout g s
  | .recordFormation g => Sys2Proof.Machine.execRecordFormation g s
  | .frameReceived samples => Sys2Proof.Machine.execFrameReceived samples s
  | .receiveGapExpiry => Sys2Proof.Machine.execReceiveGapExpiry s
  | .linkBreak => Sys2Proof.Machine.execLinkBreak s
  | .transmitEnd => Sys2Proof.Machine.execTransmitEnd s
  | .unknownCommand payload => Sys2Proof.Machine.execUnknownCommand payload s
  | .identify args => Sys2Proof.Machine.execIdentify args s
  | .status args => Sys2Proof.Machine.execStatus args s
  | .restartMeasure args => Sys2Proof.Machine.execRestartMeasure args s
  | .restartFull args => Sys2Proof.Machine.execRestartFull args s
  | .tbConfig args => Sys2Proof.Machine.execTbConfig args s
  | .tbStart args => Sys2Proof.Machine.execTbStart args s
  | .tbStop args => Sys2Proof.Machine.execTbStop args s
  | .tbSelect args => Sys2Proof.Machine.execTbSelect args s
  | .auxSet args => Sys2Proof.Machine.execAuxSet args s
  | .channelSet args => Sys2Proof.Machine.execChannelSet args s
  | .channelRead args => Sys2Proof.Machine.execChannelRead args s
  | .calibrate args => Sys2Proof.Machine.execCalibrate args s
  | .tableRead args => Sys2Proof.Machine.execTableRead args s
  | .gateWrite args => Sys2Proof.Machine.execGateWrite args s
  | .gateCommit args => Sys2Proof.Machine.execGateCommit args s
  | .gateEnable args => Sys2Proof.Machine.execGateEnable args s
  | .gateStopFinish args => Sys2Proof.Machine.execGateStopFinish args s
  | .gateStopAbort args => Sys2Proof.Machine.execGateStopAbort args s
  | .gateRead args => Sys2Proof.Machine.execGateRead args s
  | .slotRead args => Sys2Proof.Machine.execSlotRead args s
  | .slotHold args => Sys2Proof.Machine.execSlotHold args s
  | .slotRelease args => Sys2Proof.Machine.execSlotRelease args s
  | .statsClear args => Sys2Proof.Machine.execStatsClear args s
  | .streamSet args => Sys2Proof.Machine.execStreamSet args s
  | .streamClear args => Sys2Proof.Machine.execStreamClear args s
  | .noticeMask args => Sys2Proof.Machine.execNoticeMask args s
  | .lnkclkStop => Sys2Proof.Machine.execLnkclkStop s
  | .lnkclkReturn => Sys2Proof.Machine.execLnkclkReturn s
  | .lnkRxReturnToMark => Sys2Proof.Machine.execLnkRxReturnToMark s
  | .rstNRelease => Sys2Proof.Machine.execRstNRelease s
  | .referenceEdge => Sys2Proof.Machine.execReferenceEdge s

end Sys2Proof.Machine
end

