-- ==== Sys2Proof/Machine/Idle.lean ====
section
/-! DEFINITION. What the part does of its own accord when nothing waits to be taken: the link controller executes the head of its command queue when it can, and otherwise a core clock tick passes (R6, R159). -/

namespace Sys2Proof.Machine

/-- A step with nothing pending (R6, R159). -/
def idleStep (s : State) : Host.Outcome State Fault Refusal :=
  match s.link.commandQueue with
  | payload :: _ => if s.canExecute payload then exec (decodeCommand payload) s else .next s.tick
  | [] => .next s.tick

end Sys2Proof.Machine
end

