-- ==== Sys2Proof/Safety.lean ====
section
/-! DEFINITION. What a sound state of the TS-4 is, block by block, and the terms in which claims about a command speak: when its row executes it, and the state its block then acts on. -/

namespace Sys2Proof.Machine

/-! ## Commands -/

/-- The row of a command with payload `p` executes it: nothing holds the execution up (R153, R159, R170, R171), and the
command is the head of the queue, or its frame arrives at a hunting receiver with no command waiting (R154, R158). -/
def State.executes (s : State) (p : List Byte) : Bool :=
  decide (s.power = .ready) && s.lnkclk && s.link.restart.isNone && decide (s.link.replyQueue.length < 8)
  && !s.gateBusy p
  && (decide (s.link.commandQueue.head? = some p)
      || (s.link.commandQueue.isEmpty && s.link.rxLine.between && s.link.rxBuffer.isEmpty))

/-- The state once the command has left the command queue (R159, step 1): only the link has changed. -/
def State.taken (s : State) (p : List Byte) : State :=
  if s.link.commandQueue.head? = some p then
    { s with link := { s.link with commandQueue := s.link.commandQueue.tail } }
  else { s with link := { s.link with rxLine := .looking, rxGap := false } }

/-- The argument bytes that R173 gives the command of a code; none where the code names no command. -/
def argLength (code : Byte) : Option Nat :=
  if code = 0x01 ∨ code = 0x11 ∨ code = 0x12 ∨ code = 0x61 then some 0
  else if code = 0x02 ∨ code = 0x03 ∨ code = 0x13 ∨ code = 0x22 ∨ code = 0x30 ∨ code = 0x31 ∨ code = 0x41
      ∨ code = 0x42 ∨ code = 0x44 ∨ code = 0x60 then some 1
  else if code = 0x20 ∨ code = 0x43 ∨ code = 0x50 ∨ code = 0x51 ∨ code = 0x52 ∨ code = 0x53 then some 2
  else if code = 0x70 then some 3
  else if code = 0x10 then some 5
  else if code = 0x21 then some 11
  else if code = 0x40 then some 21
  else none

/-! ## Instants (R7) -/

/-- On the way to count `x` the counter comes to no instant that a block waits for: each lies at `x` or behind it, within
the 2^53 cycles over which R7 compares. -/
def State.passesNothing (s : State) (x : Coarse) : Prop :=
  ∀ w ∈ Wait.all, ∀ y ∈ s.instantOf w,
    (x - s.tb.coarse).toNat ≤ (y - s.tb.coarse).toNat ∧ (y - s.tb.coarse).toNat ≤ 2 ^ 53

/-- The counter stands at count `x`, or comes to it with no expiry on the way. -/
def State.comesTo (s : State) (x : Coarse) : Prop := s.tb.coarse = x ∨ s.passesNothing x

/-- The counter is at or after instant `x`, or comes to it with no expiry on the way. -/
def State.reaches (s : State) (x : Coarse) : Prop := (s.tb.coarse - x).toNat < 2 ^ 53 ∨ s.passesNothing x

/-- Nothing that a block waits for is due at the present count. -/
def State.nothingDue (s : State) : Prop := ∀ w ∈ Wait.all, ∀ y ∈ s.instantOf w, ¬(s.tb.coarse - y).toNat < 2 ^ 53

/-- The row that stands for the expiry of a wait. -/
def Wait.row : Wait → Instr
  | .holdoff c => .holdoffExpiry c
  | .deadTime c => .deadTimeExpiry c
  | .deadline => .calDeadline
  | .nominalEnd g => .gateNominalEnd g
  | .timeout g => .gateTimeout g
  | .record g => .recordFormation g

/-- The waits of a list come in turn, and each that is due when its turn comes expires by its own row (R7). -/
def State.expiresInTurn (s : State) (waits : List Wait) : State :=
  waits.foldl (fun v w =>
    if (v.instantOf w).any (fun y => decide ((v.tb.coarse - y).toNat < 2 ^ 53)) then
      match exec w.row v with
      | .next t => t
      | _ => v
    else v) s

/-! ## Edges -/

/-- An edge of `input` is counted for channel `c`: the channel is bound to it and not PARKED, the polarity selects it,
it is not inhibited at the level AUX then has, and the holdoff is idle or over (R27, R30, R31). -/
def State.countsEdge (s : State) (c : Chan) (input : PhysIn) (rising : Bool) (tick : Coarse) : Prop :=
  let ch := s.chan c
  ch.set.binding = some input
  ∧ (input = .aux → s.aux.role = .signal)
  ∧ (ch.set.polarity = .both ∨ (ch.set.polarity = .rise ∧ rising = true)
      ∨ (ch.set.polarity = .fall ∧ rising = false))
  ∧ ¬(ch.set.inhibitObey = true ∧ s.aux.role = .inhibit
      ∧ (s.levels.put input rising).aux = s.aux.activeHigh)
  ∧ (∀ x, ch.holdoffEnd = some x → (tick - x).toNat < 2 ^ 53)

/-- An edge is stamped on channel `c`: it is counted, its index is a multiple of 2^k, the channel is not CALIBRATING,
and the dead time is idle or over (R29, R33, R42, R43). -/
def State.stampsEdge (s : State) (c : Chan) (input : PhysIn) (rising : Bool) (tick : Coarse) : Prop :=
  let ch := s.chan c
  s.countsEdge c input rising tick
  ∧ (ch.n + 1).toNat % 2 ^ ch.set.prescale = 0
  ∧ (∀ r, s.cal = some r → r.chan ≠ c)
  ∧ (∀ x, ch.deadEnd = some x → (tick - x).toNat < 2 ^ 53)

/-! ## Timebase -/

/-- What the timebase keeps: EXT or INT is selected, NONE is in force in HALT alone, EXT is in force only when
selected, holdover is its definition, the phase timer runs in ACQUIRE and RELOCK alone, the run count goes with the
monitor, a calibration runs in RUN alone, and the coarse counter stands at 0 until its first tick (R1, R4, R5, R6, R13,
R69; the introduction of 1.6). -/
def State.timebaseSound (s : State) : Prop :=
  s.tb.selected ≠ .none
  ∧ (s.tb.inForce = .none ↔ s.tb.state = .halt)
  ∧ (s.tb.inForce = .ext → s.tb.selected = .ext)
  ∧ (s.tb.holdover = true ↔ s.tb.selected = .ext ∧ s.tb.inForce = .int)
  ∧ (s.tb.phaseTimer.isSome = true ↔ s.tb.state = .acquire ∨ s.tb.state = .relock)
  ∧ s.tb.runCount ≤ 100
  ∧ (s.tb.monitor = .absent ↔ s.tb.runCount = 0)
  ∧ (s.tb.monitor = .good ↔ s.tb.runCount = 100)
  ∧ (s.cal.isSome = true → s.tb.state = .run)
  ∧ (s.tb.ticked = false → s.tb.coarse = 0)

/-- From `s` to `u` the timebase, the dead times, the descriptors and the slots may differ, the calibration in progress may
have ended with its attempt, notices may have been posted, and nothing else: the attempt of every other channel stays,
and every queued notice keeps its place (R57, R69, R161). -/
def State.restKept (s u : State) : Prop :=
  u.power = s.power ∧ u.lnkclk = s.lnkclk ∧ u.levels = s.levels ∧ u.aux = s.aux ∧ u.stream = s.stream
  ∧ u.causes = s.causes ∧ u.pending = s.pending
  ∧ u.link = { s.link with noticeQueue := u.link.noticeQueue }
  ∧ (∃ posted : List NoticeKey,
      u.link.noticeQueue.map (fun e => e.key) = s.link.noticeQueue.map (fun e => e.key) ++ posted)
  ∧ (u.cal = s.cal ∨ u.cal = none)
  ∧ ∀ c : Chan, u.chan c = { s.chan c with
      deadEnd := (u.chan c).deadEnd
      attempt := if s.calibrates c then (u.chan c).attempt else (s.chan c).attempt }

/-- From `s` to `u` only descriptors, slots and the notice queue may differ. -/
def State.engineKept (s u : State) : Prop :=
  u = { s with descs := u.descs, slots := u.slots, link := { s.link with noticeQueue := u.link.noticeQueue } }

/-! ## Calibration -/

/-- The law of calibration tables: entries in 0 to 1023, not decreasing, and 1023 from the span on (R45, R46). -/
def tableLaw (table : Vector Nat 160) (span : Nat) : Prop :=
  (∀ b : Bin, table[b] ≤ 1023)
  ∧ (∀ a b : Bin, a ≤ b → table[a] ≤ table[b])
  ∧ (∀ b : Bin, span ≤ b.val → table[b] = 1023)

/-- A histogram agrees with its attempt: its sum is the hits, and the span found is one more than the highest raw
bin with a hit (R57). -/
def histogramLaw (h : Vector Nat 160) (a : Attempt) : Prop :=
  h.toList.sum = a.hits ∧ a.hits ≤ 65536 ∧ a.spanFound ≤ 160
  ∧ (∀ b : Bin, 0 < h[b] → b.val < a.spanFound)
  ∧ (∀ b : Bin, b.val + 1 = a.spanFound → 0 < h[b])

/-- What a channel's calibration keeps (R45, R46, R57, R59, R71). -/
def Channel.calSound (ch : Channel) : Prop :=
  tableLaw ch.table ch.span ∧ histogramLaw ch.histogram ch.attempt ∧ ch.outOfSpan ≤ 65535
  ∧ (ch.calibrated = true → 64 ≤ ch.span ∧ ch.span ≤ 159)
  ∧ (ch.calibrated = false → ch.span = 128 ∧ ch.adviceArmed = false)

/-- Every channel's calibration is sound, and the attempt in progress is that of the channel in calibration, with
fewer hits than the target (R57, R58, R62). -/
def State.calSound (s : State) : Prop :=
  ∀ c : Chan, (s.chan c).calSound
    ∧ ((s.chan c).attempt.outcome = .inProgress ↔ s.calibrates c = true)
    ∧ (s.calibrates c = true → (s.chan c).attempt.hits < 65536)

/-! ## Gate descriptors -/

/-- What a descriptor keeps: commit-pending and a close event stand in OPEN and CLOSING alone, a gate context is
present there and nowhere else, events wait behind a close event only, a timeout runs in ARMED, OPEN and CLOSING
alone, and a descriptor outside OFF has a function (R77, R80, R82, R83, R92, R94). -/
def Descriptor.sound (d : Descriptor) : Prop :=
  (d.commitPending = true → d.inGate = true)
  ∧ d.ctx.isSome = d.inGate
  ∧ (d.closeEvent.isSome = true → d.inGate = true)
  ∧ (d.closeEvent = none → d.deferred = [])
  ∧ (d.timeoutAt.isSome = true → d.running = true)
  ∧ (d.state ≠ .off → d.active.fn ≠ .none)

/-- Every descriptor is sound, and one in ARMED, OPEN or CLOSING finds the timebase in RUN or RELOCK and its used
channels ONLINE (R27, R84, R100). -/
def State.engineSound (s : State) : Prop :=
  ∀ g : Desc, (s.desc g).sound
    ∧ ((s.desc g).running = true →
        s.tb.counting = true ∧ ∀ c ∈ (s.desc g).active.used, s.chanState c = .online)

/-- A copy as GATE WRITE stores it: the empty descriptor, or a function with a primary channel, a secondary for INTERVAL
and RATIO alone, a length within its range and an exponent of 0 to 15 (R76, R78). -/
def GateCopy.stagedForm (cp : GateCopy) : Prop :=
  cp = GateCopy.empty
  ∨ (cp.fn ≠ .none ∧ cp.primary.isSome = true
    ∧ (cp.secondary.isSome = true → cp.fn = .interval ∨ cp.fn = .ratio)
    ∧ (match cp.mode with
        | .time g => 1 ≤ g ∧ g ≤ 100000000
        | .count n => 1 ≤ n ∧ n ≤ 2 ^ 40 - 1
        | .aux => True
        | .none => True)
    ∧ ∀ e, cp.timeout = some e → e ≤ 15)

/-- The secondary channel passes check 1 of R79. -/
def GateCopy.check1 (cp : GateCopy) : Prop :=
  (cp.fn = .interval → cp.secondary ≠ none)
  ∧ (cp.fn = .ratio → cp.secondary ≠ none ∧ cp.secondary ≠ cp.primary)

/-- The gate mode kind passes check 2 of R79: 1 is TIME, 2 COUNT, 3 AUX and 0 NONE (R172). -/
def GateCopy.check2 (cp : GateCopy) : Prop :=
  match cp.fn with
  | .none => True
  | .totalize => cp.mode.kind = 1 ∨ cp.mode.kind = 3
  | .interval => cp.mode.kind = 0
  | .freq => cp.mode.kind = 1 ∨ cp.mode.kind = 2
  | .period => cp.mode.kind = 1 ∨ cp.mode.kind = 2
  | .ratio => cp.mode.kind = 1 ∨ cp.mode.kind = 2

/-- The arm source passes check 3 of R79 for descriptor `g`. -/
def GateCopy.check3 (cp : GateCopy) (g : Desc) : Prop :=
  cp.fn = .none ∨ (¬(cp.arm = .aux ∧ cp.mode = .aux) ∧ cp.arm ≠ .chain g)

/-- The descriptor would arm at once on entering WAIT_ARM with copy `cp`: IMMEDIATE and ready (R84, R85). -/
def State.armsAtOnce (s : State) (cp : GateCopy) : Prop :=
  cp.arm = .immediate ∧ s.tb.counting = true ∧ ∀ c ∈ cp.used, s.chanState c = .online

/-- TOTALIZE with gate mode TIME, the one kind of gate that arming opens (R88). -/
def GateCopy.totalizeTime (cp : GateCopy) : Prop := cp.fn = .totalize ∧ cp.mode.kind = 1

/-! ## What becomes of a gate -/

/-- The timeout of a copy, started at coarse count `x` (R94). -/
def GateCopy.timeoutFrom (cp : GateCopy) (x : Coarse) : Option Coarse :=
  cp.timeout.map (fun e => x + BitVec.ofNat 54 (2 ^ e * 400000))

/-- Descriptor `d` once a TOTALIZE TIME gate of `len` µs has opened with sample `m`, under the timebase of `s`: C_end is
400 cycles a µs on, no timeout runs, and the flags are the timebase's (R94, R106, R118). -/
def State.openedAt (s : State) (d : Descriptor) (m : Sample) (len : Nat) : Descriptor :=
  { d with
    state := .gateOpen
    ctx := some {
      openStamp := none, opening := m, cEnd := some (m.instant + BitVec.ofNat 54 (400 * len)), last := none
      flags := { uncal := false, holdover := s.tb.holdover, unsettled := decide (s.tb.state = .relock) }
      endReached := false }
    timeoutAt := none, closeEvent := none }

/-- Descriptor `d` once a FREQ, PERIOD or RATIO gate has opened on stamp `st` with sample `m`, under the timebase of `s`
and with the counter at `x`: a C_end that is already reached sends it into CLOSING (R94, R106, R108, R112). -/
def State.openedOn (s : State) (d : Descriptor) (st : Stamp) (m : Sample) (x : Coarse) : Descriptor :=
  let cEnd : Option Coarse := match d.active.mode with
    | .time len => some (st.coarse + BitVec.ofNat 54 (400 * len))
    | _ => none
  let past := match cEnd with
    | some y => decide ((x - y).toNat < 2 ^ 53)
    | none => false
  { d with
    state := if past then .closing else .gateOpen
    ctx := some {
      openStamp := some st, opening := m, cEnd := cEnd, last := none
      flags := { uncal := st.flags.uncal, holdover := st.flags.holdover || s.tb.holdover
                 unsettled := st.flags.unsettled || decide (s.tb.state = .relock) }
      endReached := false }
    timeoutAt := match d.active.mode with
      | .time _ => if past then d.active.timeoutFrom x else none
      | _ => d.active.timeoutFrom x
    closeEvent := none }

/-- Arming at coarse count `x` makes `e` of descriptor `d`: a TOTALIZE TIME gate opens there, with the counts as they
stand, and every other descriptor is in ARMED with its timeout started (R88, R94, R118). -/
def State.armsInto (s : State) (d : Descriptor) (x : Coarse) (e : Descriptor) : Prop :=
  (¬d.active.totalizeTime →
    e = { d with state := .armed, ctx := none, timeoutAt := d.active.timeoutFrom x, closeEvent := none })
  ∧ (∀ len, d.active.fn = .totalize → d.active.mode = .time len →
      e.state = .gateOpen
      ∧ (1 ≤ len → len ≤ 100000000 →
          ∃ m : Sample, m.instant = x ∧ (∀ c : Chan, m.counts[c] = (s.chan c).n) ∧ e = s.openedAt d m len))

/-- From `s` to `u` descriptor `g` has judged its readiness at coarse count `x`: an IMMEDIATE one in WAIT_ARM whose used
channels are ONLINE then, with the timebase in RUN or RELOCK, has armed under the timebase as it then is, and another has
not changed (R84, R85). -/
def State.judgesAt (s u : State) (x : Coarse) (g : Desc) : Prop :=
  if (s.desc g).state = .waitArm ∧ (s.desc g).active.arm = .immediate ∧ u.tb.counting = true
      ∧ ∀ c ∈ (s.desc g).active.used, u.chanState c = .online then
    u.armsInto (s.desc g) x (u.desc g)
  else u.desc g = s.desc g

/-- From `s` to `u` every descriptor has judged its readiness at coarse count `x` (R84, R85). -/
def State.judged (s u : State) (x : Coarse) : Prop := ∀ g : Desc, s.judgesAt u x g

/-- From `s` to `u` descriptor `g` has handed record `r` to its target slot: its gate number has advanced, the slot presents
the record, or, held, keeps it pending, and no other slot has changed (R92, R124, R125, R136). -/
def State.stores (s u : State) (g : Desc) (r : Record) : Prop :=
  let k := (s.desc g).active.slot
  (u.desc g).gateNumber = (s.desc g).gateNumber + 1
  ∧ (∀ j : SlotId, j ≠ k → u.slot j = s.slot j)
  ∧ (if (s.slot k).held then
      u.slot k = { s.slot k with waiting := some r, lost := (s.slot k).lost || (s.slot k).waiting.isSome }
    else
      u.slot k = { s.slot k with
        published := some r, publishCount := (s.slot k).publishCount + 1, stats := (s.slot k).stats.take r })

/-- From `s` to `u` descriptor `g` has published record `r`, and nothing else is posted: the slot takes the record, with a
RESULT notice where it presents it and none where it is held (R124, R125, R135, R161). -/
def State.publishes (s u : State) (g : Desc) (r : Record) : Prop :=
  let k := (s.desc g).active.slot
  s.stores u g r ∧ u.link = (if (s.slot k).held then s else s.post (.result k)).link

/-- From `s` to `u` the publish of descriptor `g` has handed its chain event on: a descriptor chained to `g` that was in
WAIT_ARM and ready has armed at the present count, and no other but `g` has changed (R87). -/
def State.chains (s u : State) (g : Desc) : Prop :=
  ∀ h : Desc, h ≠ g →
    if (s.desc h).active.arm = .chain g ∧ (s.desc h).state = .waitArm ∧ u.tb.counting = true
        ∧ ∀ c ∈ (s.desc h).active.used, s.chanState c = .online then
      s.armsInto (s.desc h) u.tb.coarse (u.desc h)
    else u.desc h = s.desc h

/-- Descriptor `g`, `d` before its publish, after it in `u`: a SINGLE one and one with the last-gate mark is in OFF;
another goes on as `again` says, with a pending commit applied, if that commit keeps continuity, and else enters
WAIT_ARM, arming at once where it can, or OFF under NONE (R81, R93). -/
def State.goesOn (s u : State) (g : Desc) (d : Descriptor) (again : Descriptor → Descriptor → Prop) : Prop :=
  let cp := if d.commitPending then d.staged else d.active
  let after : Descriptor :=
    { d with active := cp, commitPending := false, gateNumber := d.gateNumber + 1, ctx := none, timeoutAt := none
             closeEvent := none }
  let off : Descriptor := { after with state := .off, lastGate := false }
  if d.active.continuous = true ∧ d.lastGate = false then
    if cp.fn = d.active.fn ∧ cp.primary = d.active.primary ∧ cp.secondary = d.active.secondary
        ∧ cp.mode.kind = d.active.mode.kind then again after (u.desc g)
    else if cp.fn = .none then u.desc g = off
    else (s.armsAtOnce cp → s.armsInto after u.tb.coarse (u.desc g))
      ∧ (¬s.armsAtOnce cp → u.desc g = { after with state := .waitArm })
  else u.desc g = off

/-- A descriptor at the entry of the timebase into HALT, once its waiting record is formed: from ARMED, OPEN and CLOSING it
returns to WAIT_ARM, or to OFF under an applied commit of NONE, and it stays as it is in OFF and WAIT_ARM (R100). -/
def Descriptor.halted (d : Descriptor) : Descriptor :=
  if d.running then
    let active := if d.commitPending then d.staged else d.active
    { d with
      active := active, commitPending := false, state := if active.fn = .none then .off else .waitArm, ctx := none
      timeoutAt := none, closeEvent := none, deferred := [], noticeCount := d.noticeCount + 1, lastReason := .timebase }
  else d

/-- From `s` to `u` the timebase has halted with no record waiting: no slot has changed, every descriptor has done as R100
says, and each that ran has a GATE notice posted, if the mask admits it. -/
def State.gatesHalted (s u : State) : Prop :=
  u.slots = s.slots ∧ ∀ g : Desc, u.desc g = (s.desc g).halted
    ∧ ((s.desc g).running = true → s.link.mask.gate = true → ∃ e ∈ u.link.noticeQueue, e.key = .gate g)

/-- From `s` to `u` the record of descriptor `g` that waited for a count is formed, the counter standing where it does in
`u` (R92): a TOTALIZE record carries the difference of its two samples and the instants × 1024 (R118 to R120); a RATIO
record its stamps and the secondary's difference between them (R115); a NO_CLOSE record no value and the counts at the
expiry instant (R111, R116). Each is published, a chain event follows, and the descriptor goes on or stops: TOTALIZE
TIME opens its next gate at the close instant, TOTALIZE AUX and NO_CLOSE enter ARMED, RATIO opens on its closing stamp. -/
def State.formsRecord (s u : State) (g : Desc) : Prop :=
  ∀ (k : GateCtx) (e : CloseEvent) (c : Chan), (s.desc g).closeEvent = some e → (s.desc g).ctx = some k →
    (s.desc g).active.primary = some c →
    let now := u.tb.coarse
    let d : Descriptor := { s.desc g with deferred := [] }
    let closing := BitVec.ofNat 64 (e.sample.instant.toNat * 1024)
    let delta := e.sample.count d.active.secondary - k.opening.count d.active.secondary
    let armed := fun (a b : Descriptor) =>
      b = { a with state := .armed, ctx := none, timeoutAt := a.active.timeoutFrom now, closeEvent := none }
    let formed := fun (r : Record) (again : Descriptor → Descriptor → Prop) =>
      s.publishes u g r ∧ s.chains u g ∧ s.goesOn u g d again
    (d.active.fn = .totalize → k.openStamp = none → e.stamp = none → e.completion ≠ .noClose →
      formed
        { desc := g, gateNumber := d.gateNumber + 1, fn := .totalize, completion := e.completion
          flags := k.flags, overrange := false
          tOpen := BitVec.ofNat 64 (k.opening.instant.toNat * 1024), tClose := closing
          nOpen := k.opening.counts[c], nClose := e.sample.counts[c], secondaryDelta := none
          value := some ((e.sample.counts[c] - k.opening.counts[c]).toNat : Int) }
        (fun a b => (a.active.mode.kind ≠ 1 → armed a b)
          ∧ ∀ len, a.active.mode = .time len → 1 ≤ len → len ≤ 100000000 →
              (now - e.sample.instant).toNat ≤ 1 → b = s.openedAt a e.sample len))
    ∧ (∀ opened st : Stamp, d.active.fn = .ratio → k.openStamp = some opened → e.stamp = some st →
        e.completion ≠ .noClose → e.sample.instant = st.coarse →
        let v := ratioValue (st.n - opened.n) delta
        formed
          { desc := g, gateNumber := d.gateNumber + 1, fn := .ratio, completion := e.completion
            flags := k.flags.union st.flags, overrange := v.2, tOpen := opened.t, tClose := st.t
            nOpen := opened.n, nClose := st.n, secondaryDelta := some delta, value := some v.1 }
          (fun a b => b = s.openedOn a st e.sample now))
    ∧ (∀ opened : Stamp, d.active.fn ≠ .totalize → d.active.fn ≠ .none → k.openStamp = some opened →
        e.stamp = none → e.completion = .noClose →
        formed
          { desc := g, gateNumber := d.gateNumber + 1, fn := d.active.fn, completion := .noClose
            flags := k.flags, overrange := false, tOpen := opened.t, tClose := closing
            nOpen := opened.n
            nClose := if d.active.fn = .interval then e.sample.count d.active.secondary else e.sample.counts[c]
            secondaryDelta := if d.active.fn = .ratio then some delta else none, value := none }
          armed)

/-- From `s` to `u` descriptor `g` forms the record that waits, if one does, and judges the events that waited behind the
close event, in their order; should one of them be a close event whose record waits in turn, the same again, up to
`n` times (R92). -/
def State.formsWaiting (g : Desc) : Nat → State → State → Prop
  | 0, s, u => u = s
  | n + 1, s, u =>
    if (s.desc g).closeEvent = none then u = s
    else ∃ v : State, s.engineKept v ∧ s.formsRecord v g
      ∧ State.formsWaiting g n ((s.desc g).deferred.foldl (fun w p => w.offer g p.1 p.2) v) u

/-- The notices that the timebase posts in leaving RUN, or in passing from RELOCK into HALT or another relock: TIMEBASE,
and then CAL for a calibration that this aborts (R18, R69, R72; the order is notes/assumptions/8.md). -/
def State.timebasePosts (s : State) : State :=
  let v := s.post .timebase
  match s.cal with
  | some r => if s.tb.state = .run then v.post (.cal r.chan) else v
  | none => v

/-- From `s` to `u` the timebase has entered HALT, whatever waited: with the timebase already in HALT, and its notices
posted, every record that waits for a count is formed, the descriptors coming in increasing number
(notes/assumptions/10.md, 25.md); then the descriptors do as R100 says, each that ran with a GATE notice (R92, R100). -/
def State.engineHalted (s u : State) : Prop :=
  ∃ (h : State) (p : Fin 9 → State), s.restKept h ∧ h.tb = u.tb ∧ h.cal = u.cal ∧ h.chans = u.chans
    ∧ h.descs = s.descs ∧ h.slots = s.slots ∧ h.link = s.timebasePosts.link ∧ p 0 = h
    ∧ (∀ g : Desc, (p g.castSucc).formsWaiting g (((p g.castSucc).desc g).deferred.length + 1) (p g.succ))
    ∧ (p 8).gatesHalted u
    ∧ u.link = (([0, 1, 2, 3, 4, 5, 6, 7] : List Desc).foldl
        (fun v g => if ((p 8).desc g).running then v.post (.gate g) else v) (p 8)).link

/-- From `s` to `u` a relock has begun: gates run on, and those in progress whose close event has not come gather UNSETTLED,
and HOLDOVER where it then holds (R100, R106). Where leaving RUN ends a calibration, its channel is ONLINE again, and every
descriptor in WAIT_ARM judges its readiness (R84, R85). Nothing else of the engine changes. -/
def State.gatesGather (s u : State) : Prop :=
  u.slots = s.slots ∧ ∀ g : Desc,
    if (s.desc g).inGate = true ∧ (s.desc g).closeEvent = none then
      u.desc g = { s.desc g with ctx := (s.desc g).ctx.map (fun k =>
        { k with flags := { uncal := k.flags.uncal, holdover := k.flags.holdover || u.tb.holdover
                            unsettled := true } }) }
    else if s.tb.state = .run ∧ s.cal ≠ none then s.judgesAt u s.tb.coarse g
    else u.desc g = s.desc g

/-- From `s` to `u` a relock has begun or been redirected: the gates have done as said above, every dead time runs on
undisturbed, and the timebase's notices are posted (R18, R55, R72, R84, R100, R106). -/
def State.relockBegun (s u : State) : Prop :=
  s.gatesGather u ∧ (∀ c : Chan, (u.chan c).deadEnd = (s.chan c).deadEnd) ∧ u.link = s.timebasePosts.link

/-! ## Restarts -/

/-- From `s` to `u` RESTART FULL has taken effect in every block but the link controller and the reset-cause record: the
timebase, AUX, the settings, the stream enables, counts, holdoffs and dead times, the descriptors, the slots and the
stream unit are at their power-on values; the tables and histograms, the attempts, the last raw bins, the out-of-span
counts and the advice stay, but that an attempt in progress ends with outcome RESTART (R20, R39, R56, R70, R75, R103,
R137, R151). -/
def State.fullRestarted (s u : State) : Prop :=
  u = { s with
    tb := { selected := .int, refFreq := .mhz10, lossDetect := true, lossAction := .switch, autoRevert := false
            monitor := .absent, runCount := 0, windowCount := 0, dividerHalf := false, windowStarved := false
            state := .halt, inForce := .none, holdover := false, phaseTimer := none, changeCount := 0
            lastCause := .none, coarse := 0, ticked := false }
    aux := { role := .arm, activeHigh := true }
    chans := u.chans, cal := none, descs := u.descs, slots := u.slots
    stream := { fifo := [], drops := Vector.replicate 4 0, frameNumber := 0 }, link := u.link, causes := u.causes }
  ∧ (∀ c : Chan,
      u.chan c = { s.chan c with
        set := { binding := some (if c = 0 then .in1 else if c = 1 then .in2 else if c = 2 then .in3 else .in4)
                 polarity := .rise, holdoff := 0, prescale := 0, skew := 0, inhibitObey := false }
        streamEnable := false, n := 0, holdoffEnd := none, deadEnd := none
        attempt := if s.calibrates c then { (s.chan c).attempt with outcome := .restart } else (s.chan c).attempt }
      ∧ u.chanState c = .online)
  ∧ (∀ g : Desc, u.desc g = {
      staged := GateCopy.empty, active := GateCopy.empty, state := .off, commitPending := false, lastGate := false
      gateNumber := 0, ctx := none, timeoutAt := none, noticeCount := 0, lastReason := .none, closeEvent := none
      deferred := [] })
  ∧ (∀ k : SlotId, u.slot k = {
      published := none, waiting := none, held := false, lost := false, publishCount := 0
      stats := { fn := .none, count := 0, minimum := none, maximum := none, sum := 0 } })

/-- From `s` to `u` RESTART MEASURE has taken effect in every block but the link controller and the reset-cause record:
counts and holdoffs are cleared, the descriptors are in OFF with their copies kept, the slots and the stream unit are
at their power-on values, and an attempt in progress ends with outcome RESTART; the rest stays (R39, R56, R70, R75,
R103, R137, R151). -/
def State.measureRestarted (s u : State) : Prop :=
  u = { s with
    chans := u.chans, cal := none, descs := u.descs, slots := u.slots
    stream := { fifo := [], drops := Vector.replicate 4 0, frameNumber := 0 }, link := u.link, causes := u.causes }
  ∧ (∀ c : Chan, u.chan c = { s.chan c with
      n := 0, holdoffEnd := none
      attempt := if s.calibrates c then { (s.chan c).attempt with outcome := .restart } else (s.chan c).attempt })
  ∧ (∀ g : Desc, u.desc g = {
      staged := (s.desc g).staged, active := (s.desc g).active, state := .off, commitPending := false
      lastGate := false, gateNumber := 0, ctx := none, timeoutAt := none, noticeCount := 0, lastReason := .none
      closeEvent := none, deferred := [] })
  ∧ (∀ k : SlotId, u.slot k = {
      published := none, waiting := none, held := false, lost := false, publishCount := 0
      stats := { fn := .none, count := 0, minimum := none, maximum := none, sum := 0 } })

/-! ## Result store -/

/-- What a slot's statistics keep: empty at count 0; otherwise the exact mean lies between minimum and maximum (R129,
R132, R133). -/
def Stats.sound (st : Stats) : Prop :=
  st.count ≤ 4294967295
  ∧ (st.count = 0 → st = Stats.empty)
  ∧ (0 < st.count → ∃ low high : Int, st.minimum = some low ∧ st.maximum = some high
      ∧ low * st.count ≤ st.sum ∧ st.sum ≤ high * st.count)

/-- A slot holds a pending record only while it is held (R124), and its statistics are sound. -/
def Slot.sound (sl : Slot) : Prop := (sl.waiting.isSome = true → sl.held = true) ∧ sl.stats.sound

/-- Every slot is sound. -/
def State.storeSound (s : State) : Prop := ∀ k : SlotId, (s.slot k).sound

/-! ## Stream unit -/

/-- Every GAP is directly followed by a STAMP of its channel (R144). -/
def gapsClosed : List Entry → Bool
  | [] => true
  | .stamp _ _ _ _ :: rest => gapsClosed rest
  | .gap c _ :: rest =>
    (match rest with
      | .stamp d _ _ _ :: _ => decide (d = c)
      | _ => false) && gapsClosed rest

/-- The count of a GAP entry lies in 1 to 2^32 − 1 (R140). -/
def Entry.countSound : Entry → Prop
  | .stamp _ _ _ _ => True
  | .gap _ k => 1 ≤ k ∧ k ≤ 4294967295

/-- What the stream unit keeps (R138, R140, R143, R144). -/
def StreamUnit.sound (u : StreamUnit) : Prop :=
  u.fifo.length ≤ 4096 ∧ gapsClosed u.fifo = true ∧ (∀ e ∈ u.fifo, e.countSound)
  ∧ ∀ c : Chan, u.drops[c] ≤ 4294967295

/-! ## Link controller -/

/-- What the link controller keeps: queues within their sizes; one notice for each kind and object, each one the mask
admits, with a posting count of 1 to 255; counters within 65,535; a candidate that begins with SYNC; and the mark
of a RESTART's ACK only while that restart is pending (R154, R158, R159, R161, R163, R165, R170). -/
def Link.sound (l : Link) : Prop :=
  l.commandQueue.length ≤ 4
  ∧ l.replyQueue.length ≤ 8
  ∧ (l.noticeQueue.map (fun e => e.key)).Nodup
  ∧ (∀ e ∈ l.noticeQueue, l.mask.admits e.key = true ∧ 1 ≤ e.postings ∧ e.postings ≤ 255)
  ∧ l.crcErrors ≤ 65535 ∧ l.lengthErrors ≤ 65535 ∧ l.truncated ≤ 65535 ∧ l.overruns ≤ 65535
  ∧ (∀ b ∈ l.rxBuffer.head?, b.val = Config.sync)
  ∧ (l.restart = none → (∀ r ∈ l.replyQueue, r.restart = none) ∧ ∀ f ∈ l.tx, f.restart = none)

end Sys2Proof.Machine
end

