-- ==== Sys2Proof/Certificates/Slice0/Obligations.lean ====
section
/-! DEFINITION. What is claimed of the TS-4, for the provers: one proposition for each obligation of OBLIGATIONS.json. A claim about a row says `exec row s = .next u.arbitrate`: the row's own effect gives `u`, and the arbiter's pick, which claim `ArbiterServesReplyNoticeStream` describes, ends the event. -/

open Sys2Proof Sys2Proof.Machine

/-! ## Steps -/

/-- A step takes the command or event at the front of the queue and runs it on the state with the queue's rest. -/
def Obligations.StepTakesFrontOfQueue : Prop :=
  ∀ (i : Instr) (s : State) (rest : List Instr), s.pending = i :: rest →
    step s = exec i { s with pending := rest }

/-- With nothing pending the link controller executes the head of its command queue when it can (R159); otherwise a core
clock tick passes (R6): in RUN and RELOCK what is due at the present count expires (R7) and the coarse counter then
advances by one, which `ticked` notes (notes/assumptions/30.md), so that with nothing due it alone changes; in HALT and
ACQUIRE nothing changes. That an empty queue leaves the part to itself is the model's choice (notes/assumptions/3.md). -/
def Obligations.IdlePartExecutesHeadCommandElseTicks : Prop :=
  ∀ s : State, s.pending = [] →
    (∀ p rest, s.link.commandQueue = p :: rest → s.canExecute p = true → step s = exec (decodeCommand p) s)
    ∧ ((∀ p rest, s.link.commandQueue = p :: rest → s.canExecute p = false) →
        (s.tb.state = .halt ∨ s.tb.state = .acquire → step s = .next s)
        ∧ (s.tb.state = .run ∨ s.tb.state = .relock →
            step s = .next { s.settle with tb := { s.tb with coarse := s.tb.coarse + 1, ticked := true } }
            ∧ (s.nothingDue →
                step s = .next { s with tb := { s.tb with coarse := s.tb.coarse + 1, ticked := true } })))

/-! ## Power-on (R171 with R20, R39, R56, R75, R103, R137, R151, R166, R167) -/

/-- A power-on reset puts every block at its power-on values and the reset-cause record at exactly {POWER}. That the levels
of the inputs, LNKCLK and the queue of pending events stay is the model's choice, as they are state of no block, and so
is that the receiver takes LNK_RX to have been at mark (notes/assumptions/1.md), and the phase of the monitor's divider
(notes/assumptions/22.md); that no tick has come is deduced from R6 (notes/assumptions/30.md). -/
def Obligations.PowerOnResetSetsPowerOnValues : Prop :=
  ∀ s : State, ∃ t : State, exec .powerOnReset s = .next t
    ∧ t.power = .held
    ∧ t.causes = { power := true, full := false, brk := false, measure := false }
    ∧ t.tb = { selected := .int, refFreq := .mhz10, lossDetect := true, lossAction := .switch,
               autoRevert := false, monitor := .absent, runCount := 0, windowCount := 0,
               dividerHalf := false, windowStarved := false, state := .halt, inForce := .none, holdover := false,
               phaseTimer := none, changeCount := 0, lastCause := .none, coarse := 0, ticked := false }
    ∧ t.aux = { role := .arm, activeHigh := true }
    ∧ t.cal = none
    ∧ ((t.chan 0).set.binding = some .in1 ∧ (t.chan 1).set.binding = some .in2
        ∧ (t.chan 2).set.binding = some .in3 ∧ (t.chan 3).set.binding = some .in4)
    ∧ (∀ c : Chan,
        (t.chan c).set = { binding := (t.chan c).set.binding, polarity := .rise, holdoff := 0,
                           prescale := 0, skew := 0, inhibitObey := false }
        ∧ (t.chan c).streamEnable = false ∧ (t.chan c).n = 0
        ∧ (t.chan c).holdoffEnd = none ∧ (t.chan c).deadEnd = none
        ∧ (t.chan c).lastBin = none ∧ (t.chan c).outOfSpan = 0
        ∧ (∀ b : Bin, (t.chan c).table[b] = if b.val < 128 then 8 * b.val + 4 else 1023)
        ∧ (t.chan c).calibrated = false ∧ (t.chan c).span = 128
        ∧ (∀ b : Bin, (t.chan c).histogram[b] = 0) ∧ (t.chan c).adviceArmed = false
        ∧ (t.chan c).attempt = { number := 0, outcome := .none, spanFound := 0, hits := 0 }
        ∧ t.chanState c = .online)
    ∧ (∀ g : Desc, t.desc g =
        { staged := { fn := .none, primary := none, secondary := none, mode := .none, arm := .immediate,
                      continuous := false, timeout := none, slot := 0 }
          active := { fn := .none, primary := none, secondary := none, mode := .none, arm := .immediate,
                      continuous := false, timeout := none, slot := 0 }
          state := .off, commitPending := false, lastGate := false, gateNumber := 0, ctx := none,
          timeoutAt := none, noticeCount := 0, lastReason := .none, closeEvent := none, deferred := [] })
    ∧ (∀ k : SlotId, t.slot k =
        { published := none, waiting := none, held := false, lost := false, publishCount := 0,
          stats := { fn := .none, count := 0, minimum := none, maximum := none, sum := 0 } })
    ∧ (t.stream.fifo = [] ∧ (∀ c : Chan, t.stream.drops[c] = 0) ∧ t.stream.frameNumber = 0)
    ∧ t.link = { rxLine := .looking, rxBuffer := [], rxGap := false, commandQueue := [], replyQueue := [],
                 noticeQueue := [],
                 mask := { result := true, gate := true, timebase := true, cal := true, advise := true,
                           slots := 0xFF },
                 crcErrors := 0, lengthErrors := 0, truncated := 0, overruns := 0, number := 0, tx := none,
                 restart := none }
    ∧ t.levels = s.levels ∧ t.lnkclk = s.lnkclk ∧ t.pending = s.pending

/-- During a power-on reset and its start-up interval no command and no event reaches a block (R171): all that follows the
outside is the level of an input, by its edge, LNKCLK, by its two rows, and what the receiver waits for on LNK_RX: it waits
for mark once LNKCLK has returned (R153), and looks for a start bit once LNK_RX has returned to mark (R157). RST_N going
high begins the start-up interval, and its end makes the part ready, with a new monitor window; nothing else changes at
either (R3). That what the receiver waits for is followed there, and stays at the end of start-up, is the model's choice
(notes/assumptions/32.md). -/
def Obligations.PowerOnResetHoldsUntilStartUpEnds : Prop :=
  (∀ (i : Instr) (s : State), s.power ≠ .ready → i ≠ .powerOnReset →
     ¬(s.power = .held ∧ i = .rstNRelease) → ¬(s.power = .startUp ∧ i = .startUpEnd) →
     exec i s = .next { s with
       levels := (match i with
         | .inputEdge input rising _ _ _ _ => s.levels.put input rising
         | _ => s.levels)
       lnkclk := if i = .lnkclkStop then false else if i = .lnkclkReturn then true else s.lnkclk
       link := { s.link with rxLine := (match i, s.link.rxLine with
         | .lnkclkReturn, .broken => .broken
         | .lnkclkReturn, line => if s.lnkclk then line else .awaitMark
         | .lnkRxReturnToMark, .inByte samples => .inByte samples
         | .lnkRxReturnToMark, _ => .looking
         | _, line => line) } })
  ∧ (∀ s : State,
       (s.power = .held → exec .rstNRelease s = .next { s with power := .startUp })
       ∧ (s.power = .startUp → exec .startUpEnd s =
           .next { s with power := .ready, tb := { s.tb with windowCount := 0, windowStarved := false } }))

/-! ## Timebase events (R3, R4, R9, R12 to R16) -/

/-- The end of a monitor window moves the monitor and its run count as the table of R4 gives, the window being good as R3
says, and begins a new window; unless it is a loss with detection on, or an entry into GOOD that auto-revert answers,
it changes nothing else. An edge of REF_IN is counted in the window at 10 MHz; at 20 MHz the divider passes every
second one (R1, R3), its phase being log entry 22. A starvation marks the window bad and makes the monitor ABSENT with
run count 0 at once, and, unless it is a loss with detection on, does nothing else. -/
def Obligations.MonitorFollowsWindowsEdgesAndStarvation : Prop :=
  (∀ s : State, s.power = .ready → ∃ u : State, exec .monitorWindowEnd s = .next u.arbitrate
     ∧ s.restKept u ∧ u.tb.windowCount = 0 ∧ u.tb.windowStarved = false
     ∧ (if 990 ≤ s.tb.windowCount ∧ s.tb.windowCount ≤ 1010 ∧ s.tb.windowStarved = false then
         (match s.tb.monitor with
         | .absent => u.tb.monitor = .present ∧ u.tb.runCount = 1
         | .present =>
           if s.tb.runCount + 1 < 100 then u.tb.monitor = .present ∧ u.tb.runCount = s.tb.runCount + 1
           else u.tb.monitor = .good ∧ u.tb.runCount = 100
         | .good => u.tb.monitor = .good ∧ u.tb.runCount = s.tb.runCount)
         ∧ (¬(s.tb.monitor = .present ∧ 99 ≤ s.tb.runCount ∧ s.tb.autoRevert = true ∧ s.tb.state = .run
              ∧ s.tb.holdover = true) →
             u = { s with tb := { s.tb with
               windowCount := 0, windowStarved := false, monitor := u.tb.monitor, runCount := u.tb.runCount } })
       else u.tb.monitor = .absent ∧ u.tb.runCount = 0
         ∧ (s.tb.monitor = .absent ∨ s.tb.inForce ≠ .ext ∨ s.tb.lossDetect = false →
             u = { s with tb := { s.tb with
               windowCount := 0, windowStarved := false, monitor := .absent, runCount := 0 } })))
  ∧ (∀ s : State, s.power = .ready →
       exec .referenceEdge s =
         .next ({ s with tb :=
           (if s.tb.refFreq = .mhz10 then { s.tb with windowCount := s.tb.windowCount + 1 }
           else if s.tb.dividerHalf then
             { s.tb with dividerHalf := false, windowCount := s.tb.windowCount + 1 }
           else { s.tb with dividerHalf := true }) } : State).arbitrate
       ∧ (∃ u : State, exec .starvation s = .next u.arbitrate
           ∧ u.tb.monitor = .absent ∧ u.tb.runCount = 0 ∧ u.tb.windowStarved = true
           ∧ (s.tb.monitor = .absent ∨ s.tb.inForce ≠ .ext ∨ s.tb.lossDetect = false →
               u = { s with tb := { s.tb with windowStarved := true, monitor := .absent, runCount := 0 } })))

/-- A loss, at a starvation or at the end of a bad window, acts as configured. Without detection it moves the monitor alone.
With action HALT it halts the timebase (R15): the records that wait are formed, as at TB STOP, and every running gate
goes to WAIT_ARM (R92, R100). That the records are formed with the timebase already in HALT is deduced
(notes/assumptions/10.md), and that the descriptors come in increasing number is the model's choice
(notes/assumptions/25.md).
With action SWITCH it begins or redirects a relock onto INT, under which gates run on and gather their flags (R100,
R106), or restarts the acquisition on INT (R14). The hundredth consecutive good window in RUN in holdover begins a
relock onto EXT in the same way with auto-revert ON, and changes the monitor alone with it OFF (R16). Each of these posts
a TIMEBASE notice (R18). Every dead time becomes idle at the halt and runs on across a relock (R55), and the attempts of
channels that are not in calibration stay (R57, R69). That a CAL notice comes behind the TIMEBASE notice is the model's
choice (notes/assumptions/8.md). -/
def Obligations.LossAndReturnAreHandledAsConfigured : Prop :=
  (∀ s : State, s.power = .ready → s.tb.monitor ≠ .absent → s.tb.inForce = .ext → s.tb.selected = .ext →
     s.tb.state ≠ .halt →
     let follows := fun (i : Instr) (seen : Timebase) =>
       let posted : Timebase := { seen with changeCount := s.tb.changeCount + 1, lastCause := .loss }
       ∃ u : State, exec i s = .next u.arbitrate
         ∧ s.restKept u
         ∧ u.tb =
           (if s.tb.lossDetect = false then seen
           else match s.tb.lossAction with
             | .halt => { posted with state := .halt, inForce := .none, holdover := false, phaseTimer := none }
             | .switch =>
               if s.tb.state = .acquire then
                 { posted with inForce := .int, holdover := true, phaseTimer := some 20000 }
               else { posted with state := .relock, inForce := .int, holdover := true,
                                  phaseTimer := some 10000 })
         ∧ (s.tb.lossDetect = true → s.link.mask.timebase = true →
             ∃ e ∈ u.link.noticeQueue, e.key = .timebase)
         ∧ (s.tb.lossDetect = false → u = { s with tb := seen })
         ∧ (s.tb.lossDetect = true → s.tb.lossAction = .halt → ∀ c : Chan, (u.chan c).deadEnd = none)
         ∧ (s.tb.lossDetect = true → s.tb.state = .acquire →
             u = { s with tb := u.tb, chans := u.chans, link := (s.post .timebase).link }
             ∧ ∀ c : Chan, u.chan c =
                 if s.tb.lossAction = .halt then { s.chan c with deadEnd := none } else s.chan c)
         ∧ (s.tb.lossDetect = true → s.tb.lossAction = .switch → s.tb.state = .run ∨ s.tb.state = .relock →
             s.relockBegun u)
         ∧ (s.tb.lossDetect = true → s.tb.lossAction = .halt → s.tb.state = .run ∨ s.tb.state = .relock →
             s.engineHalted u ∧ ((∀ g : Desc, (s.desc g).closeEvent = none) → s.gatesHalted u))
     follows .starvation { s.tb with windowStarved := true, monitor := .absent, runCount := 0 }
     ∧ (¬(990 ≤ s.tb.windowCount ∧ s.tb.windowCount ≤ 1010 ∧ s.tb.windowStarved = false) →
         follows .monitorWindowEnd
           { s.tb with windowCount := 0, windowStarved := false, monitor := .absent, runCount := 0 }))
  ∧ (∀ s : State, s.power = .ready → s.tb.monitor = .present → s.tb.runCount = 99 →
       990 ≤ s.tb.windowCount → s.tb.windowCount ≤ 1010 → s.tb.windowStarved = false →
       s.tb.state = .run → s.tb.holdover = true →
       let seen : Timebase :=
         { s.tb with windowCount := 0, windowStarved := false, monitor := .good, runCount := 100 }
       ∃ u : State, exec .monitorWindowEnd s = .next u.arbitrate
         ∧ s.restKept u
         ∧ u.tb =
           (if s.tb.autoRevert = true then
             { seen with state := .relock, inForce := .ext, holdover := false, phaseTimer := some 10000,
                         changeCount := s.tb.changeCount + 1, lastCause := .revert }
           else seen)
         ∧ (s.tb.autoRevert = false → u = { s with tb := seen })
         ∧ (s.tb.autoRevert = true → s.relockBegun u)
         ∧ (s.tb.autoRevert = true → s.link.mask.timebase = true → ∃ e ∈ u.link.noticeQueue, e.key = .timebase))

/-- The end of ACQUIRE enters RUN with the coarse counter at 0 and arms the ready IMMEDIATE descriptors at instant 0: a
TOTALIZE TIME gate opens there, with the counts as they stand and its C_end 400 cycles a µs on (R9, R85, R118). The end
of RELOCK enters RUN and changes nothing else but the posting (R12). Outside its state neither expiry finds a timer.
That no tick of RUN has come at its entry is what `ticked` says (R6, notes/assumptions/30.md). -/
def Obligations.PhaseTimerExpiryEntersRun : Prop :=
  ∀ s : State, s.power = .ready →
    (s.tb.state = .acquire → ∃ u : State, exec .acquireEnd s = .next u.arbitrate
      ∧ u.tb = { s.tb with state := .run, phaseTimer := none, coarse := 0, ticked := false,
                           changeCount := s.tb.changeCount + 1, lastCause := .acquired }
      ∧ u = { s with tb := u.tb, descs := u.descs, link := u.link }
      ∧ u.link = (s.post .timebase).link
      ∧ s.judged u 0)
    ∧ (s.tb.state = .relock → exec .relockEnd s =
        .next ((({ s with tb := { s.tb with
          state := .run, phaseTimer := none, changeCount := s.tb.changeCount + 1,
          lastCause := .relocked } } : State).post .timebase).arbitrate))
    ∧ (s.tb.state ≠ .acquire → exec .acquireEnd s = .next s.arbitrate)
    ∧ (s.tb.state ≠ .relock → exec .relockEnd s = .next s.arbitrate)

/-! ## Timebase commands (R2, R8, R10, R11) -/

/-- TB CONFIG: BUSY outside HALT; in HALT the first field whose value is not allowed is named; otherwise all five fields are
stored together, a change of the reference frequency restarts the monitor, and the ACK carries the snapshot (R2). That
such a change leaves the phase of the monitor's divider as it was is the model's choice, not R2's
(notes/assumptions/22.md). -/
def Obligations.TbConfigStoresOrNamesTheField : Prop :=
  (∀ (s : State) (a0 a1 a2 a3 a4 : Byte), s.executes [0x10, a0, a1, a2, a3, a4] = true →
    let t := s.taken [0x10, a0, a1, a2, a3, a4]
    let answers := fun (a : Answer) =>
      exec (.tbConfig [a0, a1, a2, a3, a4]) s = .next (t.reply 0x10 a).arbitrate
    (s.tb.state ≠ .halt → answers (Answer.refuse .busy))
    ∧ (s.tb.state = .halt →
        if a0 ≠ 1 ∧ a0 ≠ 2 then answers (Answer.invalid 1)
        else if a1 ≠ 1 ∧ a1 ≠ 2 then answers (Answer.invalid 2)
        else if a2 ≠ 0 ∧ a2 ≠ 1 then answers (Answer.invalid 3)
        else if a3 ≠ 1 ∧ a3 ≠ 2 then answers (Answer.invalid 4)
        else if a4 ≠ 0 ∧ a4 ≠ 1 then answers (Answer.invalid 5)
        else True))
  ∧ (∀ (s : State) (sel : Source) (freq : RefFreq) (detect : Bool) (action : LossAction) (revert : Bool),
      sel ≠ .none → s.tb.state = .halt →
      let args := [sel.code, freq.code, flagByte detect, action.code, flagByte revert]
      s.executes (0x10 :: args) = true →
      let stored : Timebase := { s.tb with selected := sel, refFreq := freq, lossDetect := detect,
                                           lossAction := action, autoRevert := revert }
      let tb : Timebase := if freq = s.tb.refFreq then stored
        else { stored with monitor := .absent, runCount := 0, windowCount := 0, windowStarved := false }
      exec (.tbConfig args) s =
        .next (({ s.taken (0x10 :: args) with tb := tb } : State).reply 0x10
          (Answer.ack tb.snapshot)).arbitrate)

/-- TB START: BUSY outside HALT, NO_REF with EXT selected and the monitor not GOOD; otherwise ACQUIRE on the selected source,
with the coarse counter, the counts of all four channels and their holdoff and dead-time states cleared, a TIMEBASE
posting of cause START and the snapshot in the ACK (R8, R39, R56). -/
def Obligations.TbStartEntersAcquire : Prop :=
  ∀ s : State, s.executes [0x11] = true →
    let t := s.taken [0x11]
    (s.tb.state ≠ .halt →
      exec (.tbStart []) s = .next (t.reply 0x11 (Answer.refuse .busy)).arbitrate)
    ∧ (s.tb.state = .halt → s.tb.selected = .ext → s.tb.monitor ≠ .good →
      exec (.tbStart []) s = .next (t.reply 0x11 (Answer.refuse .noRef)).arbitrate)
    ∧ (s.tb.state = .halt → (s.tb.selected = .ext → s.tb.monitor = .good) →
      ∃ u : State, exec (.tbStart []) s = .next (u.reply 0x11 (Answer.ack u.tb.snapshot)).arbitrate
        ∧ u.tb = { s.tb with state := .acquire, inForce := s.tb.selected, holdover := false, coarse := 0,
                             ticked := false, phaseTimer := some 20000, changeCount := s.tb.changeCount + 1,
                             lastCause := .start }
        ∧ (∀ c : Chan, u.chan c = { s.chan c with n := 0, holdoffEnd := none, deadEnd := none })
        ∧ u = { t with tb := u.tb, chans := u.chans, link := (t.post .timebase).link })

/-- TB STOP: in HALT it changes nothing; in every other state the timebase halts with a posting of cause STOP, a TIMEBASE
notice being queued if the mask admits it (R18), the attempts of channels that are not in calibration stay (R57, R69), and
the ACK carries the snapshot in both cases (R10). From ACQUIRE nothing else changes but the dead times (R55). From RUN or
RELOCK, with no record waiting to be formed, every descriptor in ARMED, OPEN or CLOSING returns to WAIT_ARM, or to OFF
under an applied commit of NONE, without a record and with a GATE notice of reason TIMEBASE; the other descriptors and
every slot stay as they are (R100). Whatever records wait, of any function, of several descriptors, with a commit pending
or events behind the close event, each is formed first, in HALT: it is published, the events are judged, and the
descriptor is then sent to WAIT_ARM from the state that follows, or is in OFF after a last gate (R92, R93, R100); the
case of one TOTALIZE record is written out. That readiness is then judged in HALT, that the descriptors come in
increasing number, and that notices come in the order TIMEBASE, CAL, RESULT, GATE, are notes/assumptions/10.md, 25.md
and 8.md. -/
def Obligations.TbStopHaltsTimebaseAndGates : Prop :=
  (∀ s : State, s.executes [0x12] = true →
     let t := s.taken [0x12]
     (s.tb.state = .halt →
       exec (.tbStop []) s = .next (t.reply 0x12 (Answer.ack s.tb.snapshot)).arbitrate)
     ∧ (s.tb.state ≠ .halt →
       ∃ u : State, exec (.tbStop []) s = .next (u.reply 0x12 (Answer.ack u.tb.snapshot)).arbitrate
         ∧ u.tb = { s.tb with state := .halt, inForce := .none, holdover := false, phaseTimer := none,
                              changeCount := s.tb.changeCount + 1, lastCause := .stop }
         ∧ t.restKept u ∧ (∀ c : Chan, (u.chan c).deadEnd = none)
         ∧ (s.link.mask.timebase = true → ∃ e ∈ u.link.noticeQueue, e.key = .timebase)
         ∧ (s.tb.state = .acquire →
             (∀ c : Chan, u.chan c = { s.chan c with deadEnd := none })
             ∧ u = { t with tb := u.tb, chans := u.chans, link := (t.post .timebase).link })))
  ∧ (∀ s : State, s.executes [0x12] = true → s.tb.state = .run ∨ s.tb.state = .relock →
       ((∀ g : Desc, (s.desc g).closeEvent = none) →
         ∃ u : State, exec (.tbStop []) s = .next (u.reply 0x12 (Answer.ack u.tb.snapshot)).arbitrate
           ∧ s.gatesHalted u)
       ∧ (∃ u : State, exec (.tbStop []) s = .next (u.reply 0x12 (Answer.ack u.tb.snapshot)).arbitrate
           ∧ u.tb.state = .halt ∧ (s.taken [0x12]).engineHalted u)
       ∧ (∀ (g : Desc) (k : GateCtx) (e : CloseEvent) (c : Chan), (∀ h : Desc, h ≠ g → (s.desc h).closeEvent = none) →
         (s.desc g).closeEvent = some e → (s.desc g).ctx = some k → (s.desc g).deferred = [] →
         (s.desc g).active.fn = .totalize → (s.desc g).active.primary = some c → k.openStamp = none →
         e.stamp = none → e.completion ≠ .noClose → (s.desc g).commitPending = false →
         let d := s.desc g
         ∃ u : State, exec (.tbStop []) s = .next (u.reply 0x12 (Answer.ack u.tb.snapshot)).arbitrate
           ∧ s.stores u g {
               desc := g, gateNumber := d.gateNumber + 1, fn := .totalize, completion := e.completion
               flags := k.flags, overrange := false
               tOpen := BitVec.ofNat 64 (k.opening.instant.toNat * 1024)
               tClose := BitVec.ofNat 64 (e.sample.instant.toNat * 1024)
               nOpen := k.opening.counts[c], nClose := e.sample.counts[c], secondaryDelta := none
               value := some ((e.sample.counts[c] - k.opening.counts[c]).toNat : Int) }
           ∧ u.link = (
               let v := if (s.slot d.active.slot).held then (s.taken [0x12]).timebasePosts
                 else (s.taken [0x12]).timebasePosts.post (.result d.active.slot)
               ([0, 1, 2, 3, 4, 5, 6, 7] : List Desc).foldl (fun w h =>
                 if (if h = g then d.active.continuous && !d.lastGate else (s.desc h).running) = true then
                   w.post (.gate h)
                 else w) v).link
           ∧ (∀ h : Desc, h ≠ g → u.desc h = (s.desc h).halted)
           ∧ u.desc g =
             if d.active.continuous = true ∧ d.lastGate = false then
               { d with state := .waitArm, gateNumber := d.gateNumber + 1, ctx := none, timeoutAt := none
                        closeEvent := none, noticeCount := d.noticeCount + 1, lastReason := .timebase }
             else
               { d with state := .off, gateNumber := d.gateNumber + 1, ctx := none, timeoutAt := none
                        closeEvent := none, lastGate := false }))

/-- TB SELECT by state, argument, source in force and monitor: every row of R11, on the timebase and in the answer. A relock
leaves the gates running, and those in progress gather their flags (R100, R106); the dead times run on across it (R55),
the attempts of channels that are not in calibration stay (R57, R69), and a TIMEBASE notice is posted (R18), ahead of a
CAL notice by choice of the model (notes/assumptions/8.md). -/
def Obligations.TbSelectFollowsItsTable : Prop :=
  ∀ (s : State) (b : Byte), s.executes [0x13, b] = true →
    let t := s.taken [0x13, b]
    let answers := fun (u : State) (a : Answer) => exec (.tbSelect [b]) s = .next (u.reply 0x13 a).arbitrate
    let posted : Timebase := { s.tb with changeCount := s.tb.changeCount + 1, lastCause := .select }
    (b ≠ 1 → b ≠ 2 → answers t (Answer.invalid 1))
    ∧ (b = 1 ∨ b = 2 → s.tb.state = .halt →
        let tb : Timebase := { s.tb with selected := if b = 1 then .ext else .int }
        answers { t with tb := tb } (Answer.ack tb.snapshot))
    ∧ (b = 1 ∨ b = 2 → s.tb.state = .acquire ∨ s.tb.state = .relock → answers t (Answer.refuse .busy))
    ∧ (b = 1 → s.tb.state = .run → s.tb.inForce = .ext → answers t (Answer.ack s.tb.snapshot))
    ∧ (b = 1 → s.tb.state = .run → s.tb.inForce = .int → s.tb.monitor ≠ .good →
        answers t (Answer.refuse .noRef))
    ∧ (b = 1 → s.tb.state = .run → s.tb.inForce = .int → s.tb.monitor = .good →
        ∃ u : State, answers u (Answer.ack u.tb.snapshot)
          ∧ u.tb = { posted with selected := .ext, state := .relock, inForce := .ext, holdover := false,
                                 phaseTimer := some 10000 }
          ∧ t.restKept u ∧ t.relockBegun u ∧ u.cal = none
          ∧ (s.link.mask.timebase = true → ∃ e ∈ u.link.noticeQueue, e.key = .timebase))
    ∧ (b = 2 → s.tb.state = .run → s.tb.inForce = .ext →
        ∃ u : State, answers u (Answer.ack u.tb.snapshot)
          ∧ u.tb = { posted with selected := .int, state := .relock, inForce := .int, holdover := false,
                                 phaseTimer := some 10000 }
          ∧ t.restKept u ∧ t.relockBegun u ∧ u.cal = none
          ∧ (s.link.mask.timebase = true → ∃ e ∈ u.link.noticeQueue, e.key = .timebase))
    ∧ (b = 2 → s.tb.state = .run → s.tb.inForce = .int → s.tb.holdover = true →
        let tb : Timebase := { posted with selected := .int, holdover := false }
        answers (({ t with tb := tb } : State).post .timebase) (Answer.ack tb.snapshot))
    ∧ (b = 2 → s.tb.state = .run → s.tb.inForce = .int → s.tb.holdover = false →
        answers t (Answer.ack s.tb.snapshot))

/-! ## What the timebase does to the other blocks (R69, R100) -/

/-- The timebase leaving RUN aborts the calibration in progress with outcome TIMEBASE and a CAL notice: by TB STOP, by TB
SELECT that begins a relock, by a loss with action SWITCH or HALT, at a starvation or a bad window, and by auto-revert.
The table set, the out-of-span count, the advice and the counts of the histogram stay, and so do the attempts of the other
channels (R57, R69). The channel is ONLINE again: where the abort begins a relock, an IMMEDIATE descriptor in WAIT_ARM that
is then ready arms (R84, R85); in HALT none is ready. That the TIMEBASE notice comes ahead of the CAL notice is the
model's choice (notes/assumptions/8.md). -/
def Obligations.LeavingRunAbortsCalibration : Prop :=
  ∀ (s : State) (r : CalRun), s.cal = some r → s.tb.state = .run →
    let aborted := fun (u : State) =>
      u.cal = none
      ∧ (u.chan r.chan).attempt = { (s.chan r.chan).attempt with outcome := .timebase }
      ∧ (u.chan r.chan).table = (s.chan r.chan).table
      ∧ (u.chan r.chan).calibrated = (s.chan r.chan).calibrated
      ∧ (u.chan r.chan).span = (s.chan r.chan).span
      ∧ (u.chan r.chan).outOfSpan = (s.chan r.chan).outOfSpan
      ∧ (u.chan r.chan).adviceArmed = (s.chan r.chan).adviceArmed
      ∧ (u.chan r.chan).histogram = (s.chan r.chan).histogram
      ∧ (s.link.mask.cal = true → ∃ e ∈ u.link.noticeQueue, e.key = .cal r.chan)
    let goodWindow := 990 ≤ s.tb.windowCount ∧ s.tb.windowCount ≤ 1010 ∧ s.tb.windowStarved = false
    (s.executes [0x12] = true →
      ∃ u : State, exec (.tbStop []) s = .next (u.reply 0x12 (Answer.ack u.tb.snapshot)).arbitrate
        ∧ u.tb.state = .halt ∧ (s.taken [0x12]).restKept u ∧ aborted u)
    ∧ (∀ b : Byte, s.executes [0x13, b] = true →
        (b = 1 ∧ s.tb.inForce = .int ∧ s.tb.monitor = .good) ∨ (b = 2 ∧ s.tb.inForce = .ext) →
        ∃ u : State, exec (.tbSelect [b]) s = .next (u.reply 0x13 (Answer.ack u.tb.snapshot)).arbitrate
          ∧ u.tb.state = .relock ∧ (s.taken [0x13, b]).restKept u ∧ (s.taken [0x13, b]).relockBegun u ∧ aborted u)
    ∧ (∀ i : Instr, s.power = .ready → s.tb.monitor ≠ .absent → s.tb.inForce = .ext → s.tb.lossDetect = true →
        i = .starvation ∨ (i = .monitorWindowEnd ∧ ¬goodWindow) →
        (s.tb.lossAction = .switch →
          ∃ u : State, exec i s = .next u.arbitrate ∧ u.tb.state = .relock ∧ s.restKept u ∧ s.relockBegun u
            ∧ aborted u)
        ∧ (s.tb.lossAction = .halt →
          ∃ u : State, exec i s = .next u.arbitrate ∧ u.tb.state = .halt ∧ s.restKept u ∧ aborted u))
    ∧ (s.power = .ready → goodWindow → s.tb.monitor = .present → s.tb.runCount = 99 → s.tb.holdover = true →
        s.tb.autoRevert = true →
        ∃ u : State, exec .monitorWindowEnd s = .next u.arbitrate ∧ u.tb.state = .relock ∧ s.restKept u
          ∧ s.relockBegun u ∧ aborted u)

/-! ## Edges (R21, R23, R30 to R33, R42 to R50) -/

/-- In RUN and RELOCK an edge whose closing tick is a tick of RUN or RELOCK, the counter coming to it with no expiry on the
way, advances the count of exactly the channels for which it counts, by one modulo 2^48, and starts their holdoffs; it
leaves their settings, tables and calibrations, and stands at its closing tick (R21, R30, R31, R32). In HALT and ACQUIRE, during a power-on reset, and at
the count with which RUN was entered, before its first tick, an edge does nothing but move the level that is followed
(R6, R21, R171; notes/assumptions/30.md). -/
def Obligations.CountedEdgesAdvanceTheCount : Prop :=
  (∀ (s : State) (input : PhysIn) (rising : Bool) (tick : Coarse) (bins : Vector Bin 4) (chans : List Chan)
     (takings : List (Chan × Desc)), s.power = .ready → s.tb.state = .run ∨ s.tb.state = .relock →
     s.tb.ticked = true ∨ tick ≠ s.tb.coarse → s.comesTo tick →
     ∃ u : State, exec (.inputEdge input rising tick bins chans takings) s = .next u.arbitrate
       ∧ u.levels = s.levels.put input rising
       ∧ u.tb = { s.tb with coarse := tick, ticked := true }
       ∧ (∀ c : Chan,
           (s.countsEdge c input rising tick →
             (u.chan c).n = (s.chan c).n + 1
             ∧ (u.chan c).holdoffEnd = if (s.chan c).set.holdoff = 0 then none
                 else some (tick + (s.chan c).set.holdoff.zeroExtend 54))
           ∧ (¬s.countsEdge c input rising tick →
             (u.chan c).n = (s.chan c).n ∧ (u.chan c).holdoffEnd = (s.chan c).holdoffEnd)
           ∧ (u.chan c).set = (s.chan c).set ∧ (u.chan c).streamEnable = (s.chan c).streamEnable
           ∧ (u.chan c).table = (s.chan c).table ∧ (u.chan c).calibrated = (s.chan c).calibrated
           ∧ (u.chan c).span = (s.chan c).span ∧ (u.chan c).histogram = (s.chan c).histogram
           ∧ (u.chan c).attempt = (s.chan c).attempt)
       ∧ u.aux = s.aux ∧ u.cal = s.cal ∧ u.power = s.power ∧ u.lnkclk = s.lnkclk ∧ u.causes = s.causes
       ∧ u.pending = s.pending ∧ u.link = { s.link with noticeQueue := u.link.noticeQueue })
  ∧ (∀ (s : State) (input : PhysIn) (rising : Bool) (tick : Coarse) (bins : Vector Bin 4) (chans : List Chan)
       (takings : List (Chan × Desc)), s.power ≠ .ready ∨ s.tb.state = .halt ∨ s.tb.state = .acquire
         ∨ (s.tb.ticked = false ∧ tick = s.tb.coarse) →
       exec (.inputEdge input rising tick bins chans takings) s =
         .next { s with levels := s.levels.put input rising })

/-- In RUN and RELOCK an edge is stamped on exactly the channels on which it is counted, offered by its index, ONLINE and
outside dead time: there it starts a dead time of four cycles, sets the last raw bin and counts a stamp out of span,
spending an armed advice at 256; elsewhere the interpolator stays as it is (R33, R42, R43, R44, R46). The stamped event
carries the channel, the n after the edge, the composed t and the flags of R49. It goes to the FIFO where the stream
enable is on (R52), an advice that falls due is posted, in the order in which the channels come and ahead of what the
takings post (R71, R161, notes/assumptions/8.md), nothing else being posted, and every descriptor takes it, each in its turn (R51,
R53, R89): every pair of a channel and a descriptor has its turn once, those that the row lists coming first. A sample
that a descriptor holds takes in an edge of its own tick, by one on the edge's channel, and no other (R34, R105). The
orders are operands of the row (notes/assumptions/9.md). An AUX edge that is an AUX event is `ActiveAuxEdgeArmsWaitingDescriptors`. -/
def Obligations.StampedEdgesMoveTheInterpolator : Prop :=
  (∀ (s : State) (input : PhysIn) (rising : Bool) (tick : Coarse) (bins : Vector Bin 4) (chans : List Chan)
    (takings : List (Chan × Desc)), s.power = .ready → s.tb.state = .run ∨ s.tb.state = .relock →
    s.tb.ticked = true ∨ tick ≠ s.tb.coarse → s.comesTo tick →
    ∃ u : State, exec (.inputEdge input rising tick bins chans takings) s = .next u.arbitrate
      ∧ ∀ c : Chan,
        (s.stampsEdge c input rising tick →
          (u.chan c).deadEnd = some (tick + 4) ∧ (u.chan c).lastBin = some bins[c]
          ∧ (if (s.chan c).span ≤ bins[c].val ∧ (s.chan c).outOfSpan < 65535 then
              (u.chan c).outOfSpan = (s.chan c).outOfSpan + 1
              ∧ (u.chan c).adviceArmed = ((s.chan c).adviceArmed && decide ((s.chan c).outOfSpan ≠ 255))
            else (u.chan c).outOfSpan = (s.chan c).outOfSpan
              ∧ (u.chan c).adviceArmed = (s.chan c).adviceArmed))
        ∧ (¬s.stampsEdge c input rising tick →
          (u.chan c).deadEnd = (s.chan c).deadEnd ∧ (u.chan c).lastBin = (s.chan c).lastBin
          ∧ (u.chan c).outOfSpan = (s.chan c).outOfSpan ∧ (u.chan c).adviceArmed = (s.chan c).adviceArmed))
  ∧ (∀ (s : State) (input : PhysIn) (rising : Bool) (tick : Coarse) (bins : Vector Bin 4) (chans : List Chan)
      (takings : List (Chan × Desc)) (counted stamped : Chan → Bool) (st : Chan → Stamp), s.power = .ready →
      s.tb.state = .run ∨ s.tb.state = .relock → s.tb.ticked = true ∨ tick ≠ s.tb.coarse → s.comesTo tick →
      input ≠ .aux ∨ s.aux.role = .inhibit ∨ s.aux.role = .signal →
      (∀ c, counted c = true ↔ s.countsEdge c input rising tick) →
      (∀ c, stamped c = true ↔ s.stampsEdge c input rising tick) →
      (∀ c, (st c).chan = c ∧ (st c).n = (s.chan c).n + 1 ∧ (st c).coarse = tick
        ∧ (st c).flags = { uncal := !(s.chan c).calibrated, holdover := s.tb.holdover
                           unsettled := decide (s.tb.state = .relock) }
        ∧ ((st c).t.toNat : Int) =
            ((tick.toNat : Int) * 1024 - ((s.chan c).table[bins[c]] : Int) + (s.chan c).set.skew.toInt) % 2 ^ 64) →
      let order := takingOrder chans allChans
      ∃ v u : State, exec (.inputEdge input rising tick bins chans takings) s = .next u.arbitrate
        ∧ v = { s with
            levels := s.levels.put input rising, tb := { s.tb with coarse := tick, ticked := true }, chans := v.chans
            descs := v.descs, stream := v.stream, link := { s.link with noticeQueue := v.link.noticeQueue } }
        ∧ v.stream = order.foldl
            (fun q c => if stamped c = true ∧ (s.chan c).streamEnable = true then q.offer (st c) else q) s.stream
        ∧ v.link = (order.foldl (fun w c =>
            if stamped c = true ∧ (s.chan c).adviceArmed = true ∧ (s.chan c).span ≤ bins[c].val
                ∧ (s.chan c).outOfSpan = 255 then
              w.post (.advise c)
            else w) s).link
        ∧ (∀ g : Desc, v.desc g =
            order.foldl (fun d c => if counted c = true then d.note c tick else d) (s.desc g))
        ∧ (∀ c, (v.chan c).n = if counted c = true then (s.chan c).n + 1 else (s.chan c).n)
        ∧ u = (takingsOf takings order).foldl (fun w p =>
            if stamped p.1 = true then w.offer p.2 (.stamp (st p.1)) (v.sampleAt tick) else w) v
        ∧ (v.sampleAt tick).instant = tick ∧ (∀ c : Chan, (v.sampleAt tick).counts[c] = (v.chan c).n)
        ∧ order.Nodup ∧ (∀ c : Chan, c ∈ order) ∧ (chans.Nodup → ∃ rest, order = chans ++ rest)
        ∧ (takingsOf takings order).Nodup ∧ (∀ p : Chan × Desc, p ∈ takingsOf takings order)
        ∧ (takings.Nodup → ∃ rest, takingsOf takings order = takings ++ rest))
  ∧ (∀ (c : Chan) (tick : Coarse), ∃ seen : Sample → Sample,
      (∀ m : Sample, (seen m).instant = m.instant ∧ ∀ e : Chan,
        (seen m).counts[e] = if m.instant = tick ∧ e = c then m.counts[e] + 1 else m.counts[e])
      ∧ ∀ d : Descriptor, d.note c tick = { d with
          ctx := d.ctx.map (fun k =>
            { k with opening := seen k.opening, last := k.last.map (fun p => (p.1, seen p.2)) })
          closeEvent := d.closeEvent.map (fun e => { e with sample := seen e.sample })
          deferred := d.deferred.map (fun p => (p.1, seen p.2)) })

/-- The timestamp of a stamp is composed from its coarse count, its fine value and the skew, on exact integers, and reduced
modulo 2^64 (R47). -/
def Obligations.TimestampIsComposedExactly : Prop :=
  ∀ (s : State) (c : Chan) (tick : Coarse) (b : Bin),
    ((s.stampOf c tick b).t.toNat : Int) =
      ((tick.toNat : Int) * 1024 - ((s.chan c).table[b] : Int) + (s.chan c).set.skew.toInt) % 2 ^ 64

/-- The expiry of a running holdoff and of a running dead time makes it idle, with the counter at the end instant or
beyond, and changes nothing else (R7, R30, R42); an expiry later than its instant acts as log entry 4 says. The counter
passes no instant without its expiry (R7): an edge that comes later finds the counter going over every count on its
way, and what is due at the present count expires, as its own row does, before the counter leaves it; several waits
that are due there expire in turn, in the order of notes/assumptions/4.md, which is the model's choice: holdoffs, dead
times, the calibration deadline, nominal ends, timeouts, records, each in increasing number. -/
def Obligations.HoldoffAndDeadTimeExpire : Prop :=
  (∀ (s : State) (c : Chan) (x : Coarse), s.power = .ready → s.tb.state = .run ∨ s.tb.state = .relock → s.reaches x →
    let reached := s.tb.movedTo (if (s.tb.coarse - x).toNat < 2 ^ 53 then s.tb.coarse else x)
    ((s.chan c).holdoffEnd = some x →
      ∃ u : State, exec (.holdoffExpiry c) s = .next u.arbitrate
        ∧ u = { s with tb := reached, chans := u.chans }
        ∧ ∀ d : Chan, u.chan d = if d = c then { s.chan c with holdoffEnd := none } else s.chan d)
    ∧ ((s.chan c).deadEnd = some x →
      ∃ u : State, exec (.deadTimeExpiry c) s = .next u.arbitrate
        ∧ u = { s with tb := reached, chans := u.chans }
        ∧ ∀ d : Chan, u.chan d = if d = c then { s.chan c with deadEnd := none } else s.chan d))
  ∧ (∀ (s : State) (input : PhysIn) (rising : Bool) (tick : Coarse) (bins : Vector Bin 4) (chans : List Chan)
      (takings : List (Chan × Desc)), s.power = .ready → s.tb.state = .run ∨ s.tb.state = .relock →
      let edge := exec (.inputEdge input rising tick bins chans takings)
      (∀ x, s.comesTo x → (x - s.tb.coarse).toNat ≤ (tick - s.tb.coarse).toNat →
        edge s = edge { s with tb := s.tb.movedTo x })
      ∧ (let channels : List Chan := [0, 1, 2, 3]
         let descriptors : List Desc := [0, 1, 2, 3, 4, 5, 6, 7]
         let u := s.expiresInTurn (channels.map .holdoff ++ channels.map .deadTime ++ [.deadline]
           ++ descriptors.map .nominalEnd ++ descriptors.map .timeout ++ descriptors.map .record)
         tick ≠ s.tb.coarse → u.nothingDue → edge s = edge u))

/-- Under AUX role ARM an active edge arms every descriptor that is in WAIT_ARM, ready and armed by AUX, at the edge's
coarse count, with its timeout started there; a TOTALIZE TIME gate opens at that count (R23, R86, R88, R94, R118). Under
role GATE an active edge opens the gate of every TOTALIZE AUX descriptor in ARMED, and an inactive edge closes the one of
every such descriptor in OPEN, with the counts at the edge's coarse count (R23, R119); its record waits for the next
tick (R92). At a descriptor between its close event and its record an AUX event that its copy can take waits, with the
counts at the edge's coarse count (R92, notes/assumptions/14.md). Either way the other descriptors stay as they are, and
so does all else but the level and the counter. -/
def Obligations.ActiveAuxEdgeArmsWaitingDescriptors : Prop :=
  ∀ (s : State) (rising : Bool) (tick : Coarse) (bins : Vector Bin 4) (chans : List Chan) (takings : List (Chan × Desc)),
    s.power = .ready → s.tb.state = .run ∨ s.tb.state = .relock → s.tb.ticked = true ∨ tick ≠ s.tb.coarse →
    s.comesTo tick →
    let waits := fun (d e : Descriptor) (ev : MenEvent) =>
      ∃ m : Sample, m.instant = tick ∧ (∀ c : Chan, m.counts[c] = (s.chan c).n)
        ∧ e = { d with deferred := d.deferred ++ [(ev, m)] }
    let framed := fun (u : State) =>
      exec (.inputEdge .aux rising tick bins chans takings) s = .next u.arbitrate
      ∧ u = { s with levels := s.levels.put .aux rising, tb := { s.tb with coarse := tick, ticked := true }
                     descs := u.descs }
    (s.aux.role = .arm → ∃ u : State, framed u
      ∧ ∀ g : Desc,
        if (s.desc g).closeEvent ≠ none then
          (rising = s.aux.activeHigh → waits (s.desc g) (u.desc g) .auxArm)
          ∧ (rising ≠ s.aux.activeHigh → u.desc g = s.desc g)
        else if rising = s.aux.activeHigh ∧ (s.desc g).state = .waitArm ∧ (s.desc g).active.arm = .aux
            ∧ ∀ c ∈ (s.desc g).active.used, s.chanState c = .online then
          s.armsInto (s.desc g) tick (u.desc g)
        else u.desc g = s.desc g)
    ∧ (s.aux.role = .gate → ∃ u : State, framed u
      ∧ (∀ g : Desc, (s.desc g).closeEvent ≠ none →
          ((s.desc g).active.mode = .aux →
            waits (s.desc g) (u.desc g) (if rising = s.aux.activeHigh then .auxOpen else .auxClose))
          ∧ ((s.desc g).active.mode ≠ .aux → u.desc g = s.desc g))
      ∧ ∃ m : Sample, m.instant = tick ∧ (∀ c : Chan, m.counts[c] = (s.chan c).n)
        ∧ ∀ g : Desc, (s.desc g).closeEvent = none → u.desc g =
          let d := s.desc g
          if d.active.fn = .totalize ∧ d.active.mode = .aux ∧ rising = s.aux.activeHigh ∧ d.state = .armed then
            { d with
              state := .gateOpen
              ctx := some {
                openStamp := none, opening := m, cEnd := none, last := none
                flags := { uncal := false, holdover := s.tb.holdover, unsettled := decide (s.tb.state = .relock) }
                endReached := false }
              timeoutAt := d.active.timeoutFrom tick, closeEvent := none }
          else if d.active.fn = .totalize ∧ d.active.mode = .aux ∧ rising ≠ s.aux.activeHigh ∧ d.state = .gateOpen then
            { d with closeEvent := some { completion := .normal, stamp := none, sample := m } }
          else d)

/-! ## AUX, channel and calibration commands (R24, R25, R35 to R38, R60 to R68, R74) -/

/-- AUX SET: the first bad field is named; BUSY while a running descriptor uses AUX, or while a channel bound to AUX is
CALIBRATING and the role is not SIGNAL; otherwise both settings are stored, the channels bound to AUX that become
PARKED or ONLINE have their holdoff idle, an IMMEDIATE descriptor in WAIT_ARM that is then ready arms, and the ACK
carries the settings, the level and the channel states (R24, R25, R28, R84, R85). -/
def Obligations.AuxSetStoresItsSettings : Prop :=
  (∀ (s : State) (a b : Byte), s.executes [0x20, a, b] = true →
    let t := s.taken [0x20, a, b]
    (¬(1 ≤ a.toNat ∧ a.toNat ≤ 4) →
      exec (.auxSet [a, b]) s = .next (t.reply 0x20 (Answer.invalid 1)).arbitrate)
    ∧ (1 ≤ a.toNat → a.toNat ≤ 4 → b ≠ 1 → b ≠ 2 →
      exec (.auxSet [a, b]) s = .next (t.reply 0x20 (Answer.invalid 2)).arbitrate))
  ∧ ∀ (s : State) (role : AuxRole) (high : Bool),
    let args := [role.code, if high then 1 else 2]
    s.executes (0x20 :: args) = true →
    let t := s.taken (0x20 :: args)
    let gateUses := ∃ g : Desc, (s.desc g).running = true
      ∧ ((s.desc g).active.arm = .aux ∨ (s.desc g).active.mode = .aux
        ∨ ∃ c ∈ (s.desc g).active.used, (s.chan c).set.binding = some .aux)
    let calUses := role ≠ .signal ∧ ∃ c : Chan, (s.chan c).set.binding = some .aux ∧ s.calibrates c = true
    (gateUses ∨ calUses →
      exec (.auxSet args) s = .next (t.reply 0x20 (Answer.refuse .busy)).arbitrate)
    ∧ (¬gateUses → ¬calUses →
      ∃ u : State,
        exec (.auxSet args) s = .next (u.reply 0x20 (Answer.ack (args ++
          [if s.levels.aux then 1 else 0, (u.chanState 0).code, (u.chanState 1).code, (u.chanState 2).code,
            (u.chanState 3).code]))).arbitrate
        ∧ u = { t with aux := { role := role, activeHigh := high }, chans := u.chans, descs := u.descs }
        ∧ (∀ c : Chan, u.chan c =
            if (s.chan c).set.binding = some .aux ∧ ¬(s.aux.role = .signal ↔ role = .signal) then
              { s.chan c with holdoffEnd := none }
            else s.chan c)
        ∧ s.judged u s.tb.coarse)

/-- CHANNEL SET with allowed values: a holdoff above 65,535 and a prescale above 20 are clamped; the five settings other than
the holdoff are kept on a channel that is CALIBRATING or used by a running descriptor, a change of them being
refused with BUSY; a stored command replaces every setting, makes the holdoff idle if the binding or the polarity
is new, and answers with the channel record; an IMMEDIATE descriptor in WAIT_ARM that is then ready arms (R84, R85).
Values that are not allowed are refused in the order channel number, binding, polarity, inhibit-obey (R35, R36, R37). -/
def Obligations.ChannelSetStoresClampedSettings : Prop :=
  (∀ (s : State) (c : Chan) (binding : Option PhysIn) (polarity : Polarity) (holdoff : BitVec 32)
     (prescale : Byte) (skew : BitVec 16) (obey : Bool),
     let args := [chanByte c, bindingCode binding, polarity.code] ++ leBytes 4 holdoff.toNat ++ [prescale]
       ++ leBytes 2 skew.toNat ++ [flagByte obey]
     s.executes (0x21 :: args) = true →
     let old := (s.chan c).set
     let new : Settings :=
       { binding := binding, polarity := polarity
         holdoff := if 65535 < holdoff.toNat then 65535 else BitVec.ofNat 16 holdoff.toNat
         prescale := if 20 < prescale.toNat then 20 else prescale.toNat
         skew := skew, inhibitObey := obey }
     let busy := (s.chanState c = .calibrating
         ∨ ∃ g : Desc, (s.desc g).running = true ∧ c ∈ (s.desc g).active.used)
       ∧ { new with holdoff := old.holdoff } ≠ old
     (busy → exec (.channelSet args) s =
       .next ((s.taken (0x21 :: args)).reply 0x21 (Answer.refuse .busy)).arbitrate)
     ∧ (¬busy → ∃ u : State,
       exec (.channelSet args) s = .next (u.reply 0x21 (Answer.ack (u.channelRecord c))).arbitrate
       ∧ u = { s.taken (0x21 :: args) with chans := u.chans, descs := u.descs }
       ∧ (∀ d : Chan, u.chan d = if d = c then
           { s.chan c with
             set := new
             holdoffEnd := if binding = old.binding ∧ polarity = old.polarity then (s.chan c).holdoffEnd
               else none }
           else s.chan d)
       ∧ s.judged u s.tb.coarse))
  ∧ (∀ (s : State) (args : List Byte), args.length = 11 → s.executes (0x21 :: args) = true →
       let answers := fun (a : Answer) =>
         exec (.channelSet args) s = .next ((s.taken (0x21 :: args)).reply 0x21 a).arbitrate
       let field := fun (k : Nat) => (args.getD k 0).toNat
       if ¬(1 ≤ field 0 ∧ field 0 ≤ 4) then answers (Answer.refuse .range)
       else if 5 < field 1 then answers (Answer.invalid 2)
       else if ¬(1 ≤ field 2 ∧ field 2 ≤ 3) then answers (Answer.invalid 3)
       else if 1 < field 10 then answers (Answer.invalid 11)
       else True)

/-- CALIBRATE checks the channel, the timebase and the channel's use in this order; accepted, it clears the histogram,
begins a new attempt with its deadline 4,000,000 cycles on, and changes nothing else (R60, R61). -/
def Obligations.CalibrateChecksAndBegins : Prop :=
  (∀ (s : State) (b : Byte), s.executes [0x30, b] = true → ¬(1 ≤ b.toNat ∧ b.toNat ≤ 4) →
    exec (.calibrate [b]) s = .next ((s.taken [0x30, b]).reply 0x30 (Answer.refuse .range)).arbitrate)
  ∧ ∀ (s : State) (c : Chan), s.executes [0x30, chanByte c] = true →
    let t := s.taken [0x30, chanByte c]
    let busy := s.cal ≠ none ∨ s.chanState c = .parked
      ∨ ∃ g : Desc, (s.desc g).running = true ∧ c ∈ (s.desc g).active.used
    (s.tb.state ≠ .run →
      exec (.calibrate [chanByte c]) s = .next (t.reply 0x30 (Answer.refuse .noTimebase)).arbitrate)
    ∧ (s.tb.state = .run → busy →
      exec (.calibrate [chanByte c]) s = .next (t.reply 0x30 (Answer.refuse .busy)).arbitrate)
    ∧ (s.tb.state = .run → ¬busy → ∃ u : State,
      exec (.calibrate [chanByte c]) s =
        .next (u.reply 0x30 (Answer.ack ([chanByte c] ++ leBytes 2 ((s.chan c).attempt.number + 1).toNat
          ++ leBytes 8 (s.tb.coarse + 4000000).toNat))).arbitrate
      ∧ u = { t with chans := u.chans, cal := some { chan := c, deadline := s.tb.coarse + 4000000 } }
      ∧ (∀ d : Chan, d ≠ c → u.chan d = s.chan d)
      ∧ u.chan c = { s.chan c with
          histogram := (u.chan c).histogram
          attempt := { number := (s.chan c).attempt.number + 1, outcome := .inProgress, spanFound := 0,
                       hits := 0 } }
      ∧ (∀ b : Bin, (u.chan c).histogram[b] = 0)
      ∧ u.chanState c = .calibrating)

/-- A hit that is not the last one, the counter coming to its tick with no expiry on the way, is counted in its bin and in the
attempt and changes nothing else (R62). The deadline ends a calibration with outcome OSC and leaves the table set, the
counts and the advice, and posts a CAL notice alone (R64, R68, R72, R161); the channel is ONLINE again, and an IMMEDIATE descriptor in WAIT_ARM that is
then ready arms (R84, R85). A deadline later than its instant acts as notes/assumptions/4.md says. With no calibration
in progress neither does anything (R58). -/
def Obligations.CalibrationHitsCountAndTheDeadlineEnds : Prop :=
  (∀ (s : State) (tick : Coarse) (b : Bin), s.power = .ready →
     (s.cal = none → exec (.calHit tick b) s = .next s.arbitrate)
     ∧ (∀ r, s.cal = some r → s.tb.state = .run → s.tb.ticked = true ∨ tick ≠ s.tb.coarse → s.comesTo tick →
       (s.chan r.chan).attempt.hits + 1 < 65536 →
       ∃ u : State, exec (.calHit tick b) s = .next u.arbitrate
         ∧ u = { s with tb := { s.tb with coarse := tick, ticked := true }, chans := u.chans }
         ∧ ∀ c : Chan, u.chan c = if c = r.chan then
             { s.chan c with
               histogram := (s.chan c).histogram.set b.val ((s.chan c).histogram[b] + 1) b.isLt
               attempt := { (s.chan c).attempt with
                 hits := (s.chan c).attempt.hits + 1
                 spanFound := if (s.chan c).attempt.spanFound < b.val + 1 then b.val + 1
                   else (s.chan c).attempt.spanFound } }
           else s.chan c))
  ∧ (∀ s : State, s.power = .ready →
       (s.cal = none → exec .calDeadline s = .next s.arbitrate)
       ∧ (∀ r, s.cal = some r → s.tb.state = .run → s.reaches r.deadline →
         ∃ u : State, exec .calDeadline s = .next u.arbitrate
           ∧ u = { s with
               tb := s.tb.movedTo
                 (if (s.tb.coarse - r.deadline).toNat < 2 ^ 53 then s.tb.coarse else r.deadline)
               chans := u.chans, cal := none, descs := u.descs
               link := { s.link with noticeQueue := u.link.noticeQueue } }
           ∧ (∀ c : Chan, u.chan c = if c = r.chan then
               { s.chan c with attempt := { (s.chan c).attempt with outcome := .osc } } else s.chan c)
           ∧ s.judged u u.tb.coarse
           ∧ u.link = (s.post (.cal r.chan)).link
           ∧ (s.link.mask.cal = true → ∃ e ∈ u.link.noticeQueue, e.key = .cal r.chan)))

/-- The last hit ends the collection: the checks of R65, in their order, give the outcome; a success installs the table of
R66 with its status, span and advice and clears the out-of-span count (R67), a failure keeps the table set (R68);
either removes the calibration and posts a CAL notice (R62, R72), and an IMMEDIATE descriptor in WAIT_ARM that is ready
with the channel ONLINE again arms at the tick (R84, R85). Nothing else is posted (R161). -/
def Obligations.LastHitJudgesTheHistogram : Prop :=
  ∀ (s : State) (r : CalRun) (tick : Coarse) (b : Bin), s.power = .ready → s.cal = some r →
    s.tb.state = .run → s.tb.ticked = true ∨ tick ≠ s.tb.coarse → s.comesTo tick →
    (s.chan r.chan).attempt.hits = 65535 →
    let ch := s.chan r.chan
    let h := ch.histogram.set b.val (ch.histogram[b] + 1) b.isLt
    let span := if ch.attempt.spanFound < b.val + 1 then b.val + 1 else ch.attempt.spanFound
    let ended := fun (outcome : CalOutcome) (u : State) =>
      u = { s with
          tb := { s.tb with coarse := tick, ticked := true }, chans := u.chans, cal := none, descs := u.descs
          link := { s.link with noticeQueue := u.link.noticeQueue } }
      ∧ (∀ d : Chan, d ≠ r.chan → u.chan d = s.chan d)
      ∧ u.chan r.chan = { ch with
          histogram := h
          attempt := { number := ch.attempt.number, outcome := outcome, spanFound := span, hits := 65536 }
          table := (u.chan r.chan).table, calibrated := (u.chan r.chan).calibrated
          span := (u.chan r.chan).span, outOfSpan := (u.chan r.chan).outOfSpan
          adviceArmed := (u.chan r.chan).adviceArmed }
      ∧ s.judged u tick
      ∧ u.link = (s.post (.cal r.chan)).link
      ∧ (s.link.mask.cal = true → ∃ e ∈ u.link.noticeQueue, e.key = .cal r.chan)
    let kept := fun (u : State) =>
      (u.chan r.chan).table = ch.table ∧ (u.chan r.chan).calibrated = ch.calibrated
      ∧ (u.chan r.chan).span = ch.span ∧ (u.chan r.chan).outOfSpan = ch.outOfSpan
      ∧ (u.chan r.chan).adviceArmed = ch.adviceArmed
    ∃ u : State, exec (.calHit tick b) s = .next u.arbitrate
      ∧ if 0 < h[159] then ended .lineShort u ∧ kept u
        else if span < 64 then ended .span u ∧ kept u
        else if ∃ a : Bin, 262144 < h[a] * span then ended .binWidth u ∧ kept u
        else ended .success u ∧ (u.chan r.chan).table = builtTable h span
          ∧ (u.chan r.chan).calibrated = true ∧ (u.chan r.chan).span = span
          ∧ (u.chan r.chan).outOfSpan = 0 ∧ (u.chan r.chan).adviceArmed = true

/-- The table built from a histogram keeps the law of calibration tables, and each entry below the span is the middle of
its bin in quanta, rounded half up, with 1024 stored as 1023 (R45, R66). -/
def Obligations.BuiltTableKeepsTheLaw : Prop :=
  ∀ (h : Vector Nat 160) (span : Nat), span ≤ 160 →
    tableLaw (builtTable h span) span
    ∧ ∀ b : Bin, b.val < span →
        ∃ v : Nat, (builtTable h span)[b] = min 1023 v
          ∧ (let x := 2048 * (h.toList.take b.val).sum + 1024 * h[b]
             262144 * v ≤ 2 * x + 131072 ∧ 2 * x + 131072 < 262144 * (v + 1))

/-! ## Gate commands (R78 to R83, R98, R99) -/

/-- GATE WRITE stores any copy a staged copy can hold, as its 20 bytes spell it, and nothing else, and returns them; while
a commit is pending it is refused with BUSY. For every function but NONE the copy stored is given by the raw bytes, and
nothing else changes: G is clamped into 1 to 100,000,000, N into 1 to 2^40 − 1, an exponent above 15 to 15, FFh being OFF;
the length of AUX and NONE is stored as 0, a secondary of a function other than INTERVAL and RATIO as absent, and the
chain byte of another arm source than CHAIN as 0, each unchecked, and the reserved bytes are not read. A descriptor
number above 7 is refused with RANGE, and a field that is not allowed with INVALID, the first in the order of R76 being
named: function, primary, a secondary of INTERVAL or RATIO, gate mode kind, arm source kind, the chain source of CHAIN,
repeat, slot; function NONE stores the empty descriptor, whatever the rest (R78, R172, R176). -/
def Obligations.GateWriteStoresTheClampedCopy : Prop :=
  (∀ (s : State) (g : Desc) (cp : GateCopy), cp.stagedForm →
     s.executes (0x40 :: eightByte g :: cp.bytes) = true →
     let t := s.taken (0x40 :: eightByte g :: cp.bytes)
     ((s.desc g).commitPending = true →
       exec (.gateWrite (eightByte g :: cp.bytes)) s = .next (t.reply 0x40 (Answer.refuse .busy)).arbitrate)
     ∧ ((s.desc g).commitPending = false →
       exec (.gateWrite (eightByte g :: cp.bytes)) s =
         .next ((t.modDesc g (fun d => { d with staged := cp })).reply 0x40 (Answer.ack cp.bytes)).arbitrate))
  ∧ (∀ (s : State) (g : Desc) (fn : Fn) (c : Chan) (second kind : Byte) (length : BitVec 64)
       (armKind source again timeout : Byte) (k : SlotId) (r0 r1 r2 : Byte),
       let paired := fn = .interval ∨ fn = .ratio
       fn ≠ .none → (paired → second.toNat ≤ 4) → kind.toNat ≤ 3 → armKind.toNat ≤ 2 →
       (armKind = 2 → source.toNat ≤ 7) → again.toNat ≤ 1 →
       let args := [eightByte g, fn.code, chanByte c, second, kind] ++ leBytes 8 length.toNat
         ++ [armKind, source, again, timeout, eightByte k, r0, r1, r2]
       s.executes (0x40 :: args) = true → (s.desc g).commitPending = false →
       let g0 := if length.toNat < 1 then 1 else if 100000000 < length.toNat then 100000000 else length.toNat
       let n0 := if length.toNat < 1 then 1 else if 2 ^ 40 - 1 < length.toNat then 2 ^ 40 - 1 else length.toNat
       ∃ cp : GateCopy,
         exec (.gateWrite args) s =
           .next (((s.taken (0x40 :: args)).modDesc g (fun d => { d with staged := cp })).reply 0x40
             (Answer.ack cp.bytes)).arbitrate
         ∧ cp.fn = fn ∧ cp.primary = some c
         ∧ (¬paired → cp.secondary = none)
         ∧ (paired → (second = 0 → cp.secondary = none) ∧ ∀ e : Chan, second.toNat = e.val + 1 → cp.secondary = some e)
         ∧ cp.mode =
             (if kind = 0 then .none else if kind = 1 then .time g0 else if kind = 2 then .count n0 else .aux)
         ∧ (armKind = 0 → cp.arm = .immediate) ∧ (armKind = 1 → cp.arm = .aux)
         ∧ (armKind = 2 → ∀ h : Desc, source.toNat = h.val → cp.arm = .chain h)
         ∧ cp.continuous = decide (again = 1)
         ∧ cp.timeout =
             (if timeout = 0xFF then none else if 15 < timeout.toNat then some 15 else some timeout.toNat)
         ∧ cp.slot = k
         ∧ cp.bytes = [fn.code, chanByte c, if paired then second else 0, kind]
             ++ leBytes 8 (if kind = 1 then g0 else if kind = 2 then n0 else 0)
             ++ [armKind, if armKind = 2 then source else 0, again,
               if timeout = 0xFF then 0xFF else if 15 < timeout.toNat then 15 else timeout, eightByte k, 0, 0, 0])
  ∧ (∀ (s : State) (args : List Byte), args.length = 21 → s.executes (0x40 :: args) = true →
       let t := s.taken (0x40 :: args)
       let answers := fun (u : State) (a : Answer) => exec (.gateWrite args) s = .next (u.reply 0x40 a).arbitrate
       let field := fun (k : Nat) => (args.getD k 0).toNat
       (8 ≤ field 0 → answers t (Answer.refuse .range))
       ∧ (∀ g : Desc, field 0 = g.val →
         if (s.desc g).commitPending then answers t (Answer.refuse .busy)
         else if 5 < field 1 then answers t (Answer.invalid 2)
         else if field 1 = 0 then
           answers (t.modDesc g (fun d => { d with staged := GateCopy.empty }))
             (Answer.ack (List.replicate 15 0 ++ [0xFF, 0, 0, 0, 0]))
         else if ¬(1 ≤ field 2 ∧ field 2 ≤ 4) then answers t (Answer.invalid 3)
         else if (field 1 = 3 ∨ field 1 = 5) ∧ 4 < field 3 then answers t (Answer.invalid 4)
         else if 3 < field 4 then answers t (Answer.invalid 5)
         else if 2 < field 13 then answers t (Answer.invalid 14)
         else if field 13 = 2 ∧ 7 < field 14 then answers t (Answer.invalid 15)
         else if 1 < field 15 then answers t (Answer.invalid 16)
         else if 7 < field 17 then answers t (Answer.invalid 18)
         else True))

/-- GATE COMMIT: RANGE for a number above 7, BUSY while a commit is pending, else the checks of R79 in their order, each
naming its field, and a copy that passes them acts by the state of the descriptor as R80 says, with the state, the
pending mark and the active copy in the ACK; no other descriptor and nothing else changes. An IMMEDIATE descriptor that
is ready arms at once under the new copy, a TOTALIZE TIME one opening its gate there (R85, R88, R118). -/
def Obligations.GateCommitActsByState : Prop :=
  (∀ (s : State) (b : Byte), s.executes [0x41, b] = true → 8 ≤ b.toNat →
    exec (.gateCommit [b]) s = .next ((s.taken [0x41, b]).reply 0x41 (Answer.refuse .range)).arbitrate)
  ∧ ∀ (s : State) (g : Desc), s.executes [0x41, eightByte g] = true →
    let t := s.taken [0x41, eightByte g]
    let d := s.desc g
    let answers := fun (a : Answer) => exec (.gateCommit [eightByte g]) s = .next (t.reply 0x41 a).arbitrate
    (d.commitPending = true → answers (Answer.refuse .busy))
    ∧ (d.commitPending = false → ¬d.staged.check1 → answers (Answer.invalid 4))
    ∧ (d.commitPending = false → d.staged.check1 → ¬d.staged.check2 → answers (Answer.invalid 5))
    ∧ (d.commitPending = false → d.staged.check1 → d.staged.check2 → ¬d.staged.check3 g →
        answers (Answer.invalid 14))
    ∧ (d.commitPending = false → d.staged.check1 → d.staged.check2 → d.staged.check3 g →
      ∃ u : State,
        exec (.gateCommit [eightByte g]) s = .next (u.reply 0x41 (Answer.ack
          ([(u.desc g).state.code, flagByte (u.desc g).commitPending] ++ (u.desc g).active.bytes))).arbitrate
        ∧ u = { t with descs := u.descs } ∧ (∀ h : Desc, h ≠ g → u.desc h = s.desc h)
        ∧ (d.state = .off → u.desc g = { d with active := d.staged })
        ∧ (d.state = .gateOpen ∨ d.state = .closing → u.desc g = { d with commitPending := true })
        ∧ (d.state = .waitArm ∨ d.state = .armed →
            (d.staged.fn = .none → u.desc g = { d with active := d.staged, timeoutAt := none, state := .off })
            ∧ (d.staged.fn ≠ .none → ¬s.armsAtOnce d.staged →
                u.desc g = { d with active := d.staged, timeoutAt := none, state := .waitArm })
            ∧ (d.staged.fn ≠ .none → s.armsAtOnce d.staged →
                s.armsInto { d with active := d.staged } s.tb.coarse (u.desc g))))

/-- GATE ENABLE: RANGE for a number above 7, BUSY outside OFF, INVALID naming the function under NONE; accepted, the gate
number is 0, the last-gate mark clear and the descriptor in WAIT_ARM, from which an IMMEDIATE one that is ready arms at
once, a TOTALIZE TIME one opening its gate there (R83, R85, R88, R118). -/
def Obligations.GateEnableEntersWaitArm : Prop :=
  (∀ (s : State) (b : Byte), s.executes [0x42, b] = true → 8 ≤ b.toNat →
    exec (.gateEnable [b]) s = .next ((s.taken [0x42, b]).reply 0x42 (Answer.refuse .range)).arbitrate)
  ∧ ∀ (s : State) (g : Desc), s.executes [0x42, eightByte g] = true →
    let t := s.taken [0x42, eightByte g]
    let d := s.desc g
    (d.state ≠ .off →
      exec (.gateEnable [eightByte g]) s = .next (t.reply 0x42 (Answer.refuse .busy)).arbitrate)
    ∧ (d.state = .off → d.active.fn = .none →
      exec (.gateEnable [eightByte g]) s = .next (t.reply 0x42 (Answer.invalid 2)).arbitrate)
    ∧ (d.state = .off → d.active.fn ≠ .none →
      ∃ u : State,
        exec (.gateEnable [eightByte g]) s = .next (u.reply 0x42 (Answer.ack [(u.desc g).state.code])).arbitrate
        ∧ u = { t with descs := u.descs } ∧ (∀ h : Desc, h ≠ g → u.desc h = s.desc h)
        ∧ (¬s.armsAtOnce d.active →
            u.desc g = { d with state := .waitArm, gateNumber := 0, lastGate := false })
        ∧ (s.armsAtOnce d.active →
            s.armsInto { d with gateNumber := 0, lastGate := false } s.tb.coarse (u.desc g)))

/-- GATE STOP FINISH acts by the state, the function and the gate mode of the descriptor as the table of R98 says, changes
no other descriptor, and answers with the state after it; a descriptor number above 7 is refused with RANGE, a mode byte
other than 1 and 2 with INVALID. Two readings are the model's: that a FINISH changes nothing in any state while the
last-gate mark is set, against the table of R98 (notes/assumptions/13.md), and that the context keeps its C_end
(notes/assumptions/23.md). -/
def Obligations.GateStopFinishFollowsItsTable : Prop :=
  (∀ (s : State) (b m : Byte), s.executes [0x43, b, m] = true → 8 ≤ b.toNat →
    exec (.gateStopFinish [b, m]) s =
      .next ((s.taken [0x43, b, m]).reply 0x43 (Answer.refuse .range)).arbitrate)
  ∧ (∀ (s : State) (g : Desc) (b : Byte), b ≠ 1 → b ≠ 2 → s.executes [0x43, eightByte g, b] = true →
    exec (.gateStopFinish [eightByte g, b]) s =
      .next ((s.taken [0x43, eightByte g, b]).reply 0x43 (Answer.invalid 2)).arbitrate)
  ∧ ∀ (s : State) (g : Desc), s.executes [0x43, eightByte g, 1] = true →
    let t := s.taken [0x43, eightByte g, 1]
    let d := s.desc g
    let synced := d.active.fn = .freq ∨ d.active.fn = .period ∨ d.active.fn = .ratio
    let ended := d.ctx.map (fun k => { k with endReached := true })
    ∃ u : State,
      exec (.gateStopFinish [eightByte g, 1]) s =
        .next (u.reply 0x43 (Answer.ack [(u.desc g).state.code])).arbitrate
      ∧ u = { t with descs := u.descs } ∧ (∀ h : Desc, h ≠ g → u.desc h = s.desc h)
      ∧ (d.lastGate = true ∨ d.state = .off → u.desc g = d)
      ∧ (d.lastGate = false → d.state = .waitArm ∨ d.state = .armed →
          u.desc g = { d with state := .off, timeoutAt := none })
      ∧ (d.lastGate = false → d.state = .closing → u.desc g = { d with lastGate := true })
      ∧ (d.state = .gateOpen → d.lastGate = false →
          (∀ len, synced → d.active.mode = .time len →
            u.desc g = { d with
              state := .closing, lastGate := true, ctx := ended
              timeoutAt := d.active.timeout.map
                (fun e => s.tb.coarse + BitVec.ofNat 54 (2 ^ e * 400000)) })
          ∧ (∀ len, synced → d.active.mode = .count len →
            u.desc g = { d with lastGate := true, ctx := ended })
          ∧ (∀ len, d.active.fn = .totalize → d.active.mode = .time len →
            ∃ m : Sample, m.instant = s.tb.coarse ∧ (∀ c : Chan, m.counts[c] = (s.chan c).n)
              ∧ u.desc g = { d with
                  lastGate := true
                  closeEvent := some { completion := .stopped, stamp := none, sample := m } })
          ∧ (d.active.fn = .interval ∨ (d.active.fn = .totalize ∧ d.active.mode = .aux) →
            u.desc g = { d with lastGate := true }))

/-- GATE STOP ABORT ends a run at once, in every state but OFF: OFF, no gate context, no timeout, the last-gate mark clear, a
pending commit applied, the gate number and every slot as they were; the ACK carries the state and the active copy
(R81, R99). A descriptor number above 7 is refused with RANGE (R98). -/
def Obligations.GateStopAbortEndsTheRun : Prop :=
  (∀ (s : State) (b : Byte), s.executes [0x43, b, 2] = true → 8 ≤ b.toNat →
    exec (.gateStopAbort [b, 2]) s =
      .next ((s.taken [0x43, b, 2]).reply 0x43 (Answer.refuse .range)).arbitrate)
  ∧ ∀ (s : State) (g : Desc), s.executes [0x43, eightByte g, 2] = true →
    let t := s.taken [0x43, eightByte g, 2]
    let d := s.desc g
    ∃ u : State,
      exec (.gateStopAbort [eightByte g, 2]) s =
        .next (u.reply 0x43 (Answer.ack ((u.desc g).state.code :: (u.desc g).active.bytes))).arbitrate
      ∧ u = { t with descs := u.descs } ∧ (∀ h : Desc, h ≠ g → u.desc h = s.desc h)
      ∧ u.desc g = if d.state = .off then d
          else { d with
            state := .off, ctx := none, timeoutAt := none, lastGate := false, closeEvent := none
            active := if d.commitPending then d.staged else d.active, commitPending := false }

/-! ## Gate events and stamps (R90 to R97, R105 to R112, R116 to R121) -/

/-- The expiry of C_end in OPEN: a FREQ, PERIOD or RATIO gate passes into CLOSING and its timeout starts (R91, R94); a
TOTALIZE gate takes its close event at C_end, with the counts sampled there (R118). Nothing else changes but the
counter, which stands at C_end or beyond. Where the counter has passed C_end, that the gate ends at the expiry all the
same, with the present counts as the sample, is the model's choice (notes/assumptions/4.md, 15.md); the first tick after
C_end has then come, and the record is formed at once (R7, R92). -/
def Obligations.NominalEndClosesOrSamples : Prop :=
  ∀ (s : State) (g : Desc) (k : GateCtx) (x : Coarse), s.power = .ready →
    s.tb.state = .run ∨ s.tb.state = .relock → (s.desc g).state = .gateOpen →
    (s.desc g).closeEvent = none → (s.desc g).ctx = some k → k.cEnd = some x → s.reaches x →
    let reached := s.tb.movedTo (if (s.tb.coarse - x).toNat < 2 ^ 53 then s.tb.coarse else x)
    let d := s.desc g
    ∃ u : State, (d.active.fn ≠ .totalize ∨ reached.coarse = x → exec (.gateNominalEnd g) s = .next u.arbitrate)
      ∧ (d.active.fn = .totalize → reached.coarse ≠ x → d.deferred = [] →
          exec (.gateNominalEnd g) s = exec (.recordFormation g) u)
      ∧ u = { s with tb := reached, descs := u.descs } ∧ (∀ h : Desc, h ≠ g → u.desc h = s.desc h)
      ∧ (d.active.fn = .freq ∨ d.active.fn = .period ∨ d.active.fn = .ratio →
          u.desc g = { d with
            state := .closing
            timeoutAt := d.active.timeout.map
              (fun e => reached.coarse + BitVec.ofNat 54 (2 ^ e * 400000)) })
      ∧ (d.active.fn = .totalize →
          ∃ m : Sample, m.instant = x ∧ (∀ c : Chan, m.counts[c] = (s.chan c).n)
            ∧ u.desc g = { d with
                closeEvent := some { completion := .normal, stamp := none, sample := m } })

/-- The expiry of a timeout in ARMED returns the descriptor to WAIT_ARM with a NO_SIGNAL notice, the gate number and the
last-gate mark kept, and an IMMEDIATE descriptor that is ready arms again at once with a new timeout (R95, R102). In
OPEN or CLOSING at instant x it takes a close event: NO_CLOSE for INTERVAL, and for FREQ, PERIOD and RATIO without a
last primary stamp; SHORT for TOTALIZE; each with the counts sampled at x, to be formed later (R92, R96, R97, R111).
With a last primary stamp a FREQ or PERIOD gate ends SHORT on it: its record is published at once, a RESULT notice being
posted at an unheld slot and nothing else (R124, R135, R161), chain events are
handed on and the descriptor goes on, opening its next gate on that stamp, in CLOSING where C_end has passed, or stops
(R81, R87, R93, R96, R111, R112); a RATIO gate whose last stamp is of an earlier tick does the same, and one whose last
stamp is of the present tick waits for the next (R92). Nothing else changes but the counter. For a counter that has
passed x, the expiry and the present counts as its sample, with the record formed at once, are the model's choice
(notes/assumptions/4.md, 15.md), and the tick of a RATIO record is log entry 12. -/
def Obligations.TimeoutsPostOrTakeACloseEvent : Prop :=
  (∀ (s : State) (g : Desc) (x : Coarse), s.power = .ready → s.tb.state = .run ∨ s.tb.state = .relock →
     (s.desc g).state = .armed → (s.desc g).closeEvent = none → (s.desc g).timeoutAt = some x → s.reaches x →
     let now := if (s.tb.coarse - x).toNat < 2 ^ 53 then s.tb.coarse else x
     let d := s.desc g
     ∃ u : State, exec (.gateTimeout g) s = .next u.arbitrate
       ∧ (∀ h : Desc, h ≠ g → u.desc h = s.desc h)
       ∧ u = { s with tb := s.tb.movedTo now, descs := u.descs, link := (s.post (.gate g)).link }
       ∧ (¬s.armsAtOnce d.active →
           u.desc g = { d with state := .waitArm, timeoutAt := none, noticeCount := d.noticeCount + 1,
                               lastReason := .noSignal })
       ∧ (s.armsAtOnce d.active →
           s.armsInto { d with noticeCount := d.noticeCount + 1, lastReason := .noSignal } now (u.desc g)))
  ∧ (∀ (s : State) (g : Desc) (k : GateCtx) (x : Coarse), s.power = .ready →
       s.tb.state = .run ∨ s.tb.state = .relock → (s.desc g).state = .gateOpen ∨ (s.desc g).state = .closing →
       (s.desc g).closeEvent = none → (s.desc g).ctx = some k → (s.desc g).timeoutAt = some x → s.reaches x →
       let now := if (s.tb.coarse - x).toNat < 2 ^ 53 then s.tb.coarse else x
       let d := s.desc g
       let synced := d.active.fn = .freq ∨ d.active.fn = .period ∨ d.active.fn = .ratio
       (d.active.fn = .totalize ∨ d.active.fn = .interval ∨ (synced ∧ k.last = none) →
         ∃ u : State, (now = x → exec (.gateTimeout g) s = .next u.arbitrate)
           ∧ (now ≠ x → d.deferred = [] → exec (.gateTimeout g) s = exec (.recordFormation g) u)
           ∧ u = { s with tb := s.tb.movedTo now, descs := u.descs }
           ∧ (∀ h : Desc, h ≠ g → u.desc h = s.desc h)
           ∧ ∃ m : Sample, m.instant = x ∧ (∀ c : Chan, m.counts[c] = (s.chan c).n)
             ∧ u.desc g = { d with
                 closeEvent := some { completion := if d.active.fn = .totalize then .short else .noClose
                                      stamp := none, sample := m } })
       ∧ (∀ (opened st : Stamp) (m : Sample), synced → k.openStamp = some opened → k.last = some (st, m) →
         m.instant = st.coarse → (d.active.fn = .ratio → (now - (st.coarse + 1)).toNat < 2 ^ 53) →
         let delta := m.count d.active.secondary - k.opening.count d.active.secondary
         let v := if d.active.fn = .freq then freqValue (st.n - opened.n) (st.t - opened.t)
           else if d.active.fn = .period then periodValue (st.n - opened.n) (st.t - opened.t)
           else ratioValue (st.n - opened.n) delta
         ∃ u : State, exec (.gateTimeout g) s = .next u.arbitrate
           ∧ ({ s with tb := s.tb.movedTo now } : State).engineKept u
           ∧ s.publishes u g {
               desc := g, gateNumber := d.gateNumber + 1, fn := d.active.fn, completion := .short
               flags := k.flags.union st.flags, overrange := v.2, tOpen := opened.t, tClose := st.t
               nOpen := opened.n, nClose := st.n
               secondaryDelta := if d.active.fn = .ratio then some delta else none, value := some v.1 }
           ∧ s.chains u g
           ∧ s.goesOn u g d (fun a b => b = s.openedOn a st m now))
       ∧ (∀ (st : Stamp) (m : Sample), d.active.fn = .ratio → k.last = some (st, m) → m.instant = now →
         ∃ u : State, exec (.gateTimeout g) s = .next u.arbitrate
           ∧ u = { s with tb := s.tb.movedTo now, descs := u.descs }
           ∧ (∀ h : Desc, h ≠ g → u.desc h = s.desc h)
           ∧ u.desc g = { d with closeEvent := some { completion := .short, stamp := some st, sample := m } }))

/-- The first tick after the close event of a record that waits for a count forms it (R92): a TOTALIZE record carries the
difference of its two samples modulo 2^48 and the instants × 1024 (R118, R119, R120); a RATIO record carries its
stamps and the secondary's difference between them (R115); a NO_CLOSE record has no value and carries the counts at the
expiry instant (R111, R116). Each is published, presented with a RESULT notice or pending with none, nothing else
being posted (R124, R135, R161), a chain event follows (R87), and the
descriptor goes on or stops (R81, R93, R112): TOTALIZE TIME opens its next gate at the close instant, TOTALIZE AUX and
NO_CLOSE enter ARMED, RATIO opens on its closing stamp (`State.formsRecord`). The events that waited behind the close
event are then judged, in their order. A formation later than its tick is the model's choice (notes/assumptions/4.md). -/
def Obligations.TotalizeRecordIsFormed : Prop :=
  ∀ (s : State) (g : Desc) (k : GateCtx) (e : CloseEvent) (c : Chan), s.power = .ready →
    s.tb.state = .run ∨ s.tb.state = .relock → (s.desc g).closeEvent = some e → (s.desc g).ctx = some k →
    (s.desc g).active.primary = some c → s.reaches (e.sample.instant + 1) →
    let x := e.sample.instant + 1
    let now := if (s.tb.coarse - x).toNat < 2 ^ 53 then s.tb.coarse else x
    ∃ u : State, exec (.recordFormation g) s =
        .next ((s.desc g).deferred.foldl (fun v p => v.offer g p.1 p.2) u).arbitrate
      ∧ ({ s with tb := s.tb.movedTo now } : State).engineKept u
      ∧ s.formsRecord u g

/-- A primary stamp opens the gate of a FREQ, PERIOD, RATIO or INTERVAL descriptor in ARMED: the context holds the stamp,
the counts at its coarse count, C_end for gate mode TIME, and the stamp's flags with the timebase's; the timeout
starts anew for gates ended by events and ends for gate mode TIME (R82, R90, R94, R106, R108, R116). A primary stamp
that does not close the gate in progress becomes the context's last primary stamp, with the counts at its coarse count
(R82, R105, R109, R110, R116, R118). Behind a close event whose record waits, a stamp of a used channel waits too (R92).
A secondary stamp is ignored in every state of RATIO and in ARMED of INTERVAL (R90, R105, R116), and so are a stamp of
another channel, and every stamp in OFF and WAIT_ARM (R89). That in ARMED a primary stamp opens a gate also of INTERVAL
with the secondary equal to the primary after its timeout is the model's choice (notes/assumptions/29.md). -/
def Obligations.PrimaryStampOpensTheGate : Prop :=
  (∀ (s : State) (g : Desc) (st : Stamp) (m : Sample), (s.desc g).state = .armed →
    (s.desc g).closeEvent = none → (s.desc g).active.primary = some st.chan → m.instant = s.tb.coarse →
    (s.desc g).active.fn ≠ .none → (s.desc g).active.fn ≠ .totalize →
    (∀ len, (s.desc g).active.mode = .time len → 1 ≤ len ∧ len ≤ 100000000) →
    let d := s.desc g
    s.offer g (.stamp st) m = s.modDesc g (fun _ => { d with
      state := .gateOpen
      ctx := some {
        openStamp := some st, opening := m
        cEnd := (match d.active.mode with
          | .time len => some (s.tb.coarse + BitVec.ofNat 54 (400 * len))
          | _ => none)
        last := none
        flags := { uncal := st.flags.uncal, holdover := st.flags.holdover || s.tb.holdover,
                   unsettled := st.flags.unsettled || decide (s.tb.state = .relock) }
        endReached := false }
      timeoutAt := (match d.active.mode with
        | .time _ => none
        | _ => d.active.timeout.map (fun e => s.tb.coarse + BitVec.ofNat 54 (2 ^ e * 400000)))
      closeEvent := none }))
  ∧ (∀ (s : State) (g : Desc) (st : Stamp) (m : Sample) (k : GateCtx) (opened : Stamp),
      (s.desc g).state = .gateOpen → (s.desc g).closeEvent = none → (s.desc g).ctx = some k →
      (s.desc g).active.fn ≠ .none → (s.desc g).active.primary = some st.chan →
      let d := s.desc g
      d.active.fn = .totalize ∨ (d.active.fn = .interval ∧ d.active.secondary ≠ some st.chan)
        ∨ (d.active.fn ≠ .interval ∧ k.openStamp = some opened
          ∧ ((∃ len x, d.active.mode = .time len ∧ k.cEnd = some x ∧ ¬(st.coarse - x).toNat < 2 ^ 53)
            ∨ ∃ len, d.active.mode = .count len ∧ k.endReached = false ∧ (st.n - opened.n).toNat < len)) →
      s.offer g (.stamp st) m = s.modDesc g (fun _ => { d with ctx := some { k with last := some (st, m) } }))
  ∧ (∀ (s : State) (g : Desc) (st : Stamp) (m : Sample),
      (st.chan ∉ (s.desc g).active.used → s.offer g (.stamp st) m = s)
      ∧ ((s.desc g).closeEvent = none → (s.desc g).state = .off ∨ (s.desc g).state = .waitArm →
          s.offer g (.stamp st) m = s)
      ∧ ((s.desc g).closeEvent = none → (s.desc g).active.primary ≠ some st.chan →
          (s.desc g).state = .armed ∨ (s.desc g).active.fn ≠ .interval → s.offer g (.stamp st) m = s)
      ∧ ((s.desc g).closeEvent ≠ none → st.chan ∈ (s.desc g).active.used →
          s.offer g (.stamp st) m =
            s.modDesc g (fun d => { d with deferred := d.deferred ++ [(.stamp st, m)] })))

/-- A closing stamp of a FREQ or PERIOD gate, taken at or after C_end or in CLOSING for gate mode TIME, with at least N edges
for gate mode COUNT, or after a FINISH, publishes one record between the open stamp and itself; so does the stop stamp
of an INTERVAL gate, which is the next secondary stamp (R91, R92, R109, R110, R113, R114, R116, R121). The completion
is STOPPED after a FINISH brought the end forward and NORMAL otherwise (R107). A held slot keeps the record pending
(R124), an unheld one has its RESULT notice posted, and nothing else is posted (R135, R161), chain events are handed on (R87), a pending commit is applied (R81), and the descriptor goes on, with FREQ and
PERIOD opening the next gate on the same stamp, so that no edge lies between the two, and INTERVAL in ARMED, or is in
OFF after a last gate (R93, R112). A closing stamp of RATIO takes a close event, whose record is formed at the next tick
(`TotalizeRecordIsFormed`). -/
def Obligations.ClosingStampPublishesAndReopens : Prop :=
  ∀ (s : State) (g : Desc) (st : Stamp) (m : Sample) (k : GateCtx) (opened : Stamp),
    (s.desc g).closeEvent = none → (s.desc g).ctx = some k → k.openStamp = some opened →
    st.coarse = s.tb.coarse → m.instant = s.tb.coarse →
    let d := s.desc g
    let u := s.offer g (.stamp st) m
    let closes := d.active.primary = some st.chan
      ∧ (d.state = .closing
        ∨ (d.state = .gateOpen ∧
          ((∃ len x, d.active.mode = .time len ∧ k.cEnd = some x ∧ (st.coarse - x).toNat < 2 ^ 53)
          ∨ ∃ len, d.active.mode = .count len ∧ (k.endReached = true ∨ len ≤ (st.n - opened.n).toNat))))
    let completion : Completion := if k.endReached then .stopped else .normal
    let published := fun (done : Completion) (v : Int × Bool) (again : Descriptor → Descriptor → Prop) =>
      s.engineKept u
      ∧ s.publishes u g {
          desc := g, gateNumber := d.gateNumber + 1, fn := d.active.fn, completion := done
          flags := k.flags.union st.flags, overrange := v.2, tOpen := opened.t, tClose := st.t
          nOpen := opened.n, nClose := st.n, secondaryDelta := none, value := some v.1 }
      ∧ s.chains u g ∧ s.goesOn u g d again
    (closes → d.active.fn = .freq →
      published completion (freqValue (st.n - opened.n) (st.t - opened.t))
        (fun a b => b = s.openedOn a st m s.tb.coarse))
    ∧ (closes → d.active.fn = .period →
      published completion (periodValue (st.n - opened.n) (st.t - opened.t))
        (fun a b => b = s.openedOn a st m s.tb.coarse))
    ∧ (d.active.fn = .interval → d.state = .gateOpen → d.active.secondary = some st.chan →
      published .normal (intervalValue (st.t - opened.t))
        (fun a b => b = { a with state := .armed, timeoutAt := a.active.timeoutFrom s.tb.coarse }))
    ∧ (closes → d.active.fn = .ratio →
      u = s.modDesc g (fun d => { d with
        closeEvent := some { completion := completion, stamp := some st, sample := m } }))

/-! ## Values (R104, R113 to R115, R117, R132) -/

/-- The FREQ, PERIOD and RATIO values are the exact quotients of R113, R114 and R115, rounded half up; a zero divisor, and a
rounded result above 2^64 − 1, give 2^64 − 1 with OVERRANGE (R104). -/
def Obligations.UnsignedValuesRoundHalfUp : Prop :=
  let rounded := fun (num den : Nat) (v : Int × Bool) =>
    (den = 0 → v = (2 ^ 64 - 1, true))
    ∧ (0 < den → ∃ q : Nat, 2 * den * q ≤ 2 * num + den ∧ 2 * num + den < 2 * den * (q + 1)
        ∧ v = if q ≤ 2 ^ 64 - 1 then ((q : Int), false) else (2 ^ 64 - 1, true))
  (∀ (dn : Count) (dt : Time), rounded (dn.toNat * 409600000000000000) dt.toNat (freqValue dn dt))
  ∧ (∀ (dn : Count) (dt : Time), rounded (dt.toNat * 78125) (32 * dn.toNat) (periodValue dn dt))
  ∧ (∀ dnA dnB : Count, rounded (dnA.toNat * 2 ^ 32) dnB.toNat (ratioValue dnA dnB))

/-- The INTERVAL value is Δt × 78,125 / 32, Δt read as a signed 64-bit quantity, rounded half away from zero, and saturates
at ±(2^63 − 1) with OVERRANGE (R117). -/
def Obligations.IntervalValueRoundsAwayFromZero : Prop :=
  ∀ dt : Time, ∃ q : Int,
    (0 ≤ dt.toInt → 64 * q ≤ 2 * (dt.toInt * 78125) + 32 ∧ 2 * (dt.toInt * 78125) + 32 < 64 * (q + 1))
    ∧ (dt.toInt < 0 → 64 * (q - 1) < 2 * (dt.toInt * 78125) - 32 ∧ 2 * (dt.toInt * 78125) - 32 ≤ 64 * q)
    ∧ intervalValue dt =
        if 2 ^ 63 - 1 < q then (2 ^ 63 - 1, true)
        else if q < -(2 ^ 63 - 1) then (-(2 ^ 63 - 1), true)
        else (q, false)

/-! ## Result store (R124, R125, R127, R128, R130, R131, R133, R134, R136) -/

/-- A publish presents the record in an unheld slot, leaves it pending in a held one, and marks the slot lost when it
replaces a pending record; a held slot's published record, statistics and publish count stay, and no notice is
posted for it (R124, R125, R136). -/
def Obligations.PublishPresentsOrWaits : Prop :=
  ∀ (s : State) (k : SlotId) (r : Record),
    let sl := s.slot k
    (sl.held = false →
      (s.publish k r).slot k = { sl with published := some r, publishCount := sl.publishCount + 1,
                                         stats := sl.stats.take r }
      ∧ (s.publish k r).link = (s.post (.result k)).link)
    ∧ (sl.held = true →
      (s.publish k r).slot k = { sl with waiting := some r, lost := sl.lost || sl.waiting.isSome }
      ∧ (s.publish k r).link = s.link)
    ∧ (∀ j : SlotId, j ≠ k → (s.publish k r).slot j = s.slot j)
    ∧ (s.publish k r).descs = s.descs ∧ (s.publish k r).tb = s.tb ∧ (s.publish k r).chans = s.chans

/-- The statistics take an eligible record by its function: they add it, begin again with it, or, at a count of 2^32 − 1,
stay; a record that has no value, is not NORMAL, or carries OVERRANGE leaves them unchanged (R129, R130, R131). The mean is
the sum divided by the count, rounded half away from zero, for negative sums too; there is none at count 0, and that of
sound statistics lies between the minimum and the maximum (R132). -/
def Obligations.StatisticsTakeRecordsAndGiveTheMean : Prop :=
  (∀ (st : Stats) (r : Record), r.value = none → st.take r = st)
  ∧ (∀ (st : Stats) (r : Record) (v : Int), r.value = some v →
     (r.completion ≠ .normal ∨ r.overrange = true → st.take r = st)
     ∧ (r.completion = .normal → r.overrange = false →
       (r.fn ≠ st.fn → st.take r = { fn := r.fn, count := 1, minimum := some v, maximum := some v, sum := v })
       ∧ (r.fn = st.fn → 4294967295 ≤ st.count → st.take r = st)
       ∧ (r.fn = st.fn → st.count < 4294967295 →
         (st.take r).fn = st.fn ∧ (st.take r).count = st.count + 1 ∧ (st.take r).sum = st.sum + v
         ∧ (∀ a b, st.minimum = some a → st.maximum = some b →
             (st.take r).minimum = some (min a v) ∧ (st.take r).maximum = some (max b v)))))
  ∧ (∀ st : Stats, 0 < st.count → ∃ q : Int, st.mean = some q
       ∧ (0 ≤ st.sum → 2 * (st.count : Int) * q ≤ 2 * st.sum + (st.count : Int)
           ∧ 2 * st.sum + (st.count : Int) < 2 * (st.count : Int) * (q + 1))
       ∧ (st.sum < 0 → 2 * (st.count : Int) * (q - 1) < 2 * st.sum - (st.count : Int)
           ∧ 2 * st.sum - (st.count : Int) ≤ 2 * (st.count : Int) * q))
  ∧ (∀ st : Stats, st.sound →
       (st.count = 0 → st.mean = none)
       ∧ (0 < st.count → ∃ low mean high : Int, st.minimum = some low ∧ st.mean = some mean
           ∧ st.maximum = some high ∧ low ≤ mean ∧ mean ≤ high))

/-- SLOT READ answers with the slot as it stands, its record in the layout `ArbiterServesReplyNoticeStream` gives, and clears
lost only with the clear option; SLOT HOLD holds exactly the slots of its set beside those already held; STATS CLEAR
empties the statistics of its set. Nothing else of any slot changes, a bad slot number or a set with a bit above 7 is
refused with RANGE, and a bad clear option is named (R127, R133, R134, R172, R174). -/
def Obligations.SlotCommandsChangeWhatTheyName : Prop :=
  (∀ (s : State) (b f : Byte), s.executes [0x50, b, f] = true →
    let t := s.taken [0x50, b, f]
    (8 ≤ b.toNat → exec (.slotRead [b, f]) s = .next (t.reply 0x50 (Answer.refuse .range)).arbitrate)
    ∧ (∀ k : SlotId, b.toNat = k.val →
      (2 ≤ f.toNat → exec (.slotRead [b, f]) s = .next (t.reply 0x50 (Answer.invalid 2)).arbitrate)
      ∧ (f.toNat ≤ 1 → ∃ u : State,
        let sl := s.slot k
        exec (.slotRead [b, f]) s = .next (u.reply 0x50 (Answer.ack (
          [b, if sl.held then 1 else 0, if sl.lost then 1 else 0, if sl.waiting.isSome then 1 else 0]
          ++ leBytes 2 sl.publishCount.toNat ++ [if sl.published.isSome then 1 else 0] ++ recordBytes sl.published
          ++ [sl.stats.fn.code] ++ leBytes 4 sl.stats.count
          ++ leSigned (sl.stats.minimum.getD 0) ++ leSigned (sl.stats.maximum.getD 0)
          ++ leSigned (sl.stats.mean.getD 0)))).arbitrate
        ∧ u = { t with slots := u.slots } ∧ ∀ j : SlotId,
          u.slot j = if j = k ∧ f = 1 then { s.slot j with lost := false } else s.slot j)))
  ∧ (∀ (s : State) (set high : Byte), s.executes [0x51, set, high] = true →
    let t := s.taken [0x51, set, high]
    (high ≠ 0 → exec (.slotHold [set, high]) s = .next (t.reply 0x51 (Answer.refuse .range)).arbitrate)
    ∧ (high = 0 → ∃ u : State,
      exec (.slotHold [set, high]) s =
        .next (u.reply 0x51 (Answer.ack [u.heldSet, 0, u.waitingSet, 0])).arbitrate
      ∧ u = { t with slots := u.slots } ∧ ∀ k : SlotId,
        u.slot k = if set.getLsbD k.val then { s.slot k with held := true } else s.slot k))
  ∧ (∀ (s : State) (set high : Byte), s.executes [0x53, set, high] = true →
    let t := s.taken [0x53, set, high]
    (high ≠ 0 → exec (.statsClear [set, high]) s = .next (t.reply 0x53 (Answer.refuse .range)).arbitrate)
    ∧ (high = 0 → ∃ u : State,
      exec (.statsClear [set, high]) s = .next (u.reply 0x53 (Answer.ack [set, 0])).arbitrate
      ∧ u = { t with slots := u.slots } ∧ ∀ k : SlotId,
        u.slot k = if set.getLsbD k.val then
            { s.slot k with stats := { fn := .none, count := 0, minimum := none, maximum := none, sum := 0 } }
          else s.slot k))

/-- SLOT RELEASE makes every held slot of its set not held and presents its pending record, if it has one; the other slots
stay as they are, and so does every lost flag. The ACK names the slots presented and the slots still held, and the RESULT
notices are posted in increasing number of slot (R128). -/
def Obligations.SlotReleasePresentsPendingRecords : Prop :=
  ∀ (s : State) (set high : Byte), s.executes [0x52, set, high] = true →
    let t := s.taken [0x52, set, high]
    let presented := fun (k : SlotId) => set.getLsbD k.val && (s.slot k).held && (s.slot k).waiting.isSome
    (high ≠ 0 → exec (.slotRelease [set, high]) s = .next (t.reply 0x52 (Answer.refuse .range)).arbitrate)
    ∧ (high = 0 → ∃ u : State,
      exec (.slotRelease [set, high]) s =
        .next (u.reply 0x52 (Answer.ack [slotSet presented, 0, u.heldSet, 0])).arbitrate
      ∧ u = { t with slots := u.slots, link := { t.link with noticeQueue := u.link.noticeQueue } }
      ∧ (∀ k : SlotId,
        u.slot k =
          if set.getLsbD k.val = true ∧ (s.slot k).held = true then
            match (s.slot k).waiting with
            | none => { s.slot k with held := false }
            | some r => { s.slot k with
                held := false, waiting := none, published := some r
                publishCount := (s.slot k).publishCount + 1, stats := (s.slot k).stats.take r }
          else s.slot k)
      ∧ (∀ k : SlotId, presented k = true → s.link.mask.result = true →
          s.link.mask.slots.getLsbD k.val = true → ∃ e ∈ u.link.noticeQueue, e.key = .result k)
      ∧ u.link = (([0, 1, 2, 3, 4, 5, 6, 7] : List SlotId).foldl
          (fun v k => if presented k = true then v.post (.result k) else v) t).link
      ∧ ((∀ e ∈ s.link.noticeQueue, ∀ k : SlotId, presented k = true → e.key ≠ .result k) →
          u.link.noticeQueue = s.link.noticeQueue ++ (([0, 1, 2, 3, 4, 5, 6, 7] : List SlotId).filter
            (fun k => presented k && s.link.mask.result && s.link.mask.slots.getLsbD k.val)).map
              (fun k => { key := .result k, postings := 1 })))

/-! ## Stream unit (R139, R141 to R143, R145, R146, R148, R149) -/

/-- A stamp offered to the FIFO is taken by the table of R141: appended, appended behind a GAP that carries the drop count, or
dropped and counted, the count stopping at 2^32 − 1 (R143); the other channels' drop counts and the frame number stay.
So an offered stamp adds one to what the FIFO and the drop count of its channel stand for, as long as that drop count
has not saturated, and nothing to another channel; a stream frame moves entries out of the FIFO without changing the
sum of what is sent and what stays (R149). -/
def Obligations.StreamTakesAndAccountsForStamps : Prop :=
  (∀ (u : StreamUnit) (st : Stamp), u.fifo.length ≤ 4096 →
     let free := 4096 - u.fifo.length
     let entry : Entry := .stamp st.chan st.n st.t st.flags
     (u.drops[st.chan] = 0 → 1 ≤ free → u.offer st = { u with fifo := u.fifo ++ [entry] })
     ∧ (u.drops[st.chan] = 0 → free = 0 → (u.offer st).fifo = u.fifo ∧ (u.offer st).drops[st.chan] = 1)
     ∧ (0 < u.drops[st.chan] → 2 ≤ free →
         (u.offer st).fifo = u.fifo ++ [.gap st.chan u.drops[st.chan], entry]
         ∧ (u.offer st).drops[st.chan] = 0)
     ∧ (0 < u.drops[st.chan] → free ≤ 1 →
         (u.offer st).fifo = u.fifo
         ∧ (u.offer st).drops[st.chan] =
             if u.drops[st.chan] < 4294967295 then u.drops[st.chan] + 1 else u.drops[st.chan])
     ∧ (∀ c : Chan, c ≠ st.chan → (u.offer st).drops[c] = u.drops[c])
     ∧ (u.offer st).frameNumber = u.frameNumber)
  ∧ ((∀ (u : StreamUnit) (st : Stamp) (c : Chan), u.drops[st.chan] < 4294967295 →
       stampsIn c (u.offer st).fifo + (u.offer st).drops[c] =
         stampsIn c u.fifo + u.drops[c] + if c = st.chan then 1 else 0)
     ∧ (∀ (s : State) (c : Chan),
       stampsIn c (s.stream.fifo.take 32) + stampsIn c s.sendStream.stream.fifo = stampsIn c s.stream.fifo
       ∧ s.sendStream.stream.drops = s.stream.drops))

/-- STREAM SET sets the four enables to its set, or refuses a set with one of bits 4 to 7; STREAM CLEAR empties the FIFO and
the drop counts and reports what it discarded. Neither changes anything else of the part (R139, R148). -/
def Obligations.StreamCommandsSetAndClear : Prop :=
  (∀ (s : State) (set : Byte), s.executes [0x60, set] = true →
    let t := s.taken [0x60, set]
    (16 ≤ set.toNat →
      exec (.streamSet [set]) s = .next (t.reply 0x60 (Answer.refuse .range)).arbitrate)
    ∧ (set.toNat < 16 → ∃ u : State,
      exec (.streamSet [set]) s = .next (u.reply 0x60 (Answer.ack ([set] ++ leBytes 2 s.stream.fifo.length
        ++ leBytes 4 s.stream.drops[0] ++ leBytes 4 s.stream.drops[1] ++ leBytes 4 s.stream.drops[2]
        ++ leBytes 4 s.stream.drops[3]))).arbitrate
      ∧ u = { t with chans := u.chans }
      ∧ ∀ c : Chan, u.chan c = { s.chan c with streamEnable := set.getLsbD c.val }))
  ∧ (∀ s : State, s.executes [0x61] = true → ∃ u : State,
      let gone := fun (c : Chan) => min 4294967295 (stampsIn c s.stream.fifo + s.stream.drops[c])
      exec (.streamClear []) s = .next (u.reply 0x61 (Answer.ack (leBytes 2 s.stream.fifo.length
        ++ leBytes 4 (gone 0) ++ leBytes 4 (gone 1) ++ leBytes 4 (gone 2) ++ leBytes 4 (gone 3)
        ++ leBytes 2 s.stream.frameNumber.toNat))).arbitrate
      ∧ u = { s.taken [0x61] with stream := u.stream }
      ∧ u.stream.fifo = [] ∧ (∀ c : Chan, u.stream.drops[c] = 0)
      ∧ u.stream.frameNumber = s.stream.frameNumber)

/-! ## Notices (R161 to R163) -/

/-- A posting of an enabled kind, and for RESULT of a slot in the notify set, counts on the queued entry of its kind and
object, which keeps its place, up to 255, or joins at the tail; another entry is never changed. A posting of a kind that
is off, and a RESULT posting of a slot outside the notify set, is not queued and changes nothing (R161). NOTICE
MASK replaces the mask as a whole and removes exactly the entries the new mask would not queue, the rest keeping their
order and posting counts; a set naming a slot above 7 is refused, and nothing changes (R163). -/
def Obligations.NoticesArePostedAndMasked : Prop :=
  let queues := fun (m : Mask) (key : NoticeKey) =>
    match key with
    | .result k => m.result && m.slots.getLsbD k.val
    | .gate _ => m.gate
    | .timebase => m.timebase
    | .cal _ => m.cal
    | .advise _ => m.advise
  (∀ (s : State) (key : NoticeKey),
     (queues s.link.mask key = false → s.post key = s)
     ∧ (queues s.link.mask key = true →
       ((∀ e ∈ s.link.noticeQueue, e.key ≠ key) →
         (s.post key).link.noticeQueue = s.link.noticeQueue ++ [{ key := key, postings := 1 }])
       ∧ (∀ before e after, s.link.noticeQueue = before ++ e :: after → e.key = key →
           (∀ a ∈ before, a.key ≠ key) →
           (s.post key).link.noticeQueue = before
             ++ { e with postings := if e.postings < 255 then e.postings + 1 else e.postings } :: after)
       ∧ s.post key = { s with link := { s.link with noticeQueue := (s.post key).link.noticeQueue } }))
  ∧ (∀ (s : State) (kinds set high : Byte), s.executes [0x70, kinds, set, high] = true →
       let t := s.taken [0x70, kinds, set, high]
       let mask : Mask := { result := kinds.getLsbD 0, gate := kinds.getLsbD 1, timebase := kinds.getLsbD 2,
                            cal := kinds.getLsbD 3, advise := kinds.getLsbD 4, slots := set }
       let kept := s.link.noticeQueue.filter (fun e => queues mask e.key)
       (high ≠ 0 →
         exec (.noticeMask [kinds, set, high]) s = .next (t.reply 0x70 (Answer.refuse .range)).arbitrate)
       ∧ (high = 0 →
         exec (.noticeMask [kinds, set, high]) s =
           .next (({ t with link := { t.link with mask := mask, noticeQueue := kept } } : State).reply 0x70
             (Answer.ack [kinds &&& 0x1F, set, 0, BitVec.ofNat 8 (s.link.noticeQueue.length - kept.length),
               BitVec.ofNat 8 kept.length])).arbitrate))

/-! ## The link (R153 to R160, R164, R166) -/

/-- What the receiver makes of whole frames on the line, sampled four times a bit, behind any time at mark, when it hunts
with an empty buffer between bytes (R153, R154, R173). A well-formed COMMAND frame joins the command queue at its tail,
or is an overrun at a full queue; a frame of another kind is discarded without count (R154, R158). A frame with a CRC
field that does not match counts under CRC, and a length above 1,040 under LENGTH as soon as both length bytes are
there (R155). After either the receiver hunts again from the byte behind the discarded SYNC: a frame whose first byte a
noise byte equal to SYNC has preceded is taken, and so is a whole frame inside a corrupted longer one (R156). In every
case the receiver is left hunting with an empty buffer. -/
def Obligations.WellFormedFrameIsTaken : Prop :=
  ∀ (s : State) (idle : Nat), s.power = .ready → s.lnkclk = true → s.link.rxBuffer = [] →
    (s.link.rxLine = .looking ∨ (0 < idle ∧ ∀ samples, s.link.rxLine ≠ .inByte samples)) →
    let receives := fun (bytes : List Byte) (l : Link) =>
      exec (.frameReceived (List.replicate idle true ++ lineOf bytes)) s =
        .next ({ s with link := { l with rxLine := .looking, rxBuffer := [], rxGap := false } } : State).arbitrate
    let saturating := fun (n : Nat) => if n < 65535 then n + 1 else n
    let taken := fun (kind : Byte) (payload : List Byte) (l : Link) =>
      if kind = 0x01 then
        (if l.commandQueue.length < 4 then { l with commandQueue := l.commandQueue ++ [payload] }
        else { l with overruns := saturating l.overruns })
      else l
    let crcFault : Link := { s.link with crcErrors := saturating s.link.crcErrors }
    let lengthFault : Link := { s.link with lengthErrors := saturating s.link.lengthErrors }
    ∀ (kind : Byte) (payload : List Byte), payload.length ≤ 1040 →
      receives (frameBytes kind payload) (taken kind payload s.link)
      ∧ (∀ c0 c1 : Byte, leValue [c0, c1] ≠ (crc (frameBody kind payload)).toNat →
          (0x5B : Byte) ∉ frameBody kind payload → c0 ≠ 0x5B → c1 ≠ 0x5B →
          receives (0x5B :: frameBody kind payload ++ [c0, c1]) crcFault)
      ∧ (∀ l0 l1 : Byte, 1040 < leValue [l0, l1] → kind ≠ 0x5B → l0 ≠ 0x5B → l1 ≠ 0x5B →
          receives [0x5B, kind, l0, l1] lengthFault)
      ∧ (1040 < kind.toNat + 256 * (payload.length % 256) →
          receives (0x5B :: frameBytes kind payload) (taken kind payload lengthFault))
      ∧ (∀ outer c0 c1 : Byte, (frameBytes kind payload).length ≤ 1040 →
          leValue [c0, c1] ≠ (crc (frameBody outer (frameBytes kind payload))).toNat →
          outer ≠ 0x5B → c0 ≠ 0x5B → c1 ≠ 0x5B → (0x5B : Byte) ∉ leBytes 2 (frameBytes kind payload).length →
          receives (0x5B :: frameBody outer (frameBytes kind payload) ++ [c0, c1]) (taken kind payload crcFault))

/-- A gap of more than 200 µs truncates the candidate being collected: it is counted once, and with no further SYNC value
among its bytes the receiver hunts with an empty buffer (R155, R156). The bytes behind the candidate's SYNC byte are
examined in their order: one that is not SYNC is passed over, and one that is begins a candidate. That candidate is
discarded without count if a byte of its own behind its SYNC byte is marked late, and with a count for its length or its
CRC, the hunt going on behind that SYNC byte; it is taken if it is well-formed, with the hunt going on behind it; and it
is kept if it needs bytes (R154, R155, R156, R158). That it is kept, to be discarded when the next byte comes marked
late, and not discarded at the expiry, is the model's choice between R155 and R156 (notes/assumptions/31.md). While
hunting, or a second time for one gap, the expiry does nothing. That all this also happens at an expiry while LNKCLK is
stopped, and not when it returns, is the model's choice (notes/assumptions/26.md). -/
def Obligations.ReceiveGapTruncatesTheCandidate : Prop :=
  ∀ s : State, s.power = .ready →
    (s.link.rxBuffer = [] ∨ s.link.rxGap = true → exec .receiveGapExpiry s = .next s.arbitrate)
    ∧ (∀ b rest, s.link.rxBuffer = b :: rest → s.link.rxGap = false → (∀ x ∈ rest, x.val ≠ 0x5B) →
      exec .receiveGapExpiry s =
        .next (({ s with link := { s.link with
          rxBuffer := [], rxGap := true
          truncated := if s.link.truncated < 65535 then s.link.truncated + 1 else s.link.truncated } } :
          State).arbitrate))
    ∧ (s.link.rxGap = false → ∀ b : RxByte,
      let expires := fun (l : Link) (behind : List RxByte) =>
        exec .receiveGapExpiry { s with link := { l with rxBuffer := b :: behind } }
      let saturating := fun (n : Nat) => if n < 65535 then n + 1 else n
      let late := fun (bytes : List RxByte) => ∃ x ∈ bytes, x.late = true
      let own := fun (l0 l1 : RxByte) (tail : List RxByte) => tail.take (leValue [l0.val, l1.val] + 2)
      (∀ y rest, y.val ≠ 0x5B → expires s.link (y :: rest) = expires s.link rest)
      ∧ ∀ y rest, y.val = 0x5B →
        (late (rest.take 3) → expires s.link (y :: rest) = expires s.link rest)
        ∧ (rest.length < 3 → ¬late rest → expires s.link (y :: rest) =
            .next (({ s with link := { s.link with
              rxBuffer := y :: rest, rxGap := true, truncated := saturating s.link.truncated } } : State).arbitrate))
        ∧ ∀ kind l0 l1 tail, rest = kind :: l0 :: l1 :: tail → ¬late (rest.take 3) →
          let len := leValue [l0.val, l1.val]
          let payload := ((tail.take len).map (fun x => x.val))
          let agrees := leValue (((tail.drop len).take 2).map (fun x => x.val))
            = (crc (kind.val :: l0.val :: l1.val :: payload)).toNat
          (1040 < len →
            expires s.link (y :: rest) = expires { s.link with lengthErrors := saturating s.link.lengthErrors } rest)
          ∧ (len ≤ 1040 → late (own l0 l1 tail) → expires s.link (y :: rest) = expires s.link rest)
          ∧ (len ≤ 1040 → ¬late (own l0 l1 tail) → tail.length < len + 2 → expires s.link (y :: rest) =
              .next (({ s with link := { s.link with
                rxBuffer := y :: rest, rxGap := true, truncated := saturating s.link.truncated } } : State).arbitrate))
          ∧ (len ≤ 1040 → ¬late (own l0 l1 tail) → len + 2 ≤ tail.length → ¬agrees →
              expires s.link (y :: rest) = expires { s.link with crcErrors := saturating s.link.crcErrors } rest)
          ∧ (len ≤ 1040 → ¬late (own l0 l1 tail) → len + 2 ≤ tail.length → agrees →
              expires s.link (y :: rest) = expires
                (if kind.val = 0x01 then
                  (if s.link.commandQueue.length < 4 then
                    { s.link with commandQueue := s.link.commandQueue ++ [payload] }
                  else { s.link with overruns := saturating s.link.overruns })
                else s.link) (tail.drop (len + 2))))

/-- The bits of a byte on the line, sampled four times each, give the byte back at sample 3 of each bit time, whatever the
level of the stop bit, and the CRC of the nine digits is 29B1h (R153, R154). A receiver that looks for a start bit stays
so at mark and takes the change to space as the start bit; 39 samples from there, the last of them sample 3 of the stop
bit, it takes the byte of the third samples, as the first of a candidate if it is SYNC and the receiver hunts, and after a
stop bit at space it waits for mark, passing over space (R153, R154). LNKCLK stopping and returning, and LNK_RX returning
to mark, change only LNKCLK and what the receiver waits for: mark, once LNKCLK is back, a byte in reception being lost
(R153, R157). That LNKCLK's return does so in a part that is held or starts up too is the model's choice
(notes/assumptions/32.md). While LNKCLK is stopped the arbiter does not pick, no sample is taken, no frame ends and a
waiting command is not executed. -/
def Obligations.LineCodesBytesAndStopsWithItsClock : Prop :=
  ((∀ b : Byte, (lineBits b).length = 10 ∧ (lineBits b).head? = some false ∧ (lineBits b).getLast? = some true)
    ∧ (∀ (b : Byte) (stop : Bool), sampledByte (lineSamples ((lineBits b).dropLast ++ [stop])) = b)
    ∧ crc [0x31, 0x32, 0x33, 0x34, 0x35, 0x36, 0x37, 0x38, 0x39] = 0x29B1)
  ∧ (∀ s : State, s.power = .ready → s.lnkclk = true →
      let sees := fun (samples : List Bool) (l : Link) =>
        exec (.frameReceived samples) s = .next ({ s with link := l } : State).arbitrate
      let waits := s.link.rxLine = .awaitMark ∨ s.link.rxLine = .broken
      (s.link.rxLine = .looking →
        (∀ n : Nat, sees (List.replicate n true) s.link)
        ∧ (∀ later : List Bool, later.length < 38 →
            sees (false :: later) { s.link with rxLine := .inByte (false :: later) })
        ∧ (∀ (samples : Vector Bool 39) (b : Byte), samples[0] = false →
            (∀ k : Fin 8, b.getLsbD k.val = samples[4 * (k.val + 1) + 2]) →
            let line : RxLine := if samples[38] then .looking else .awaitMark
            sees samples.toList ({ s.link with rxLine := line }.receive b)
            ∧ (s.link.rxBuffer = [] → sees samples.toList { s.link with
                rxLine := line, rxGap := false
                rxBuffer := if b = 0x5B then [{ val := b, late := s.link.rxGap }] else [] })))
      ∧ (∀ n : Nat, waits → sees (List.replicate n false) s.link
          ∧ sees (List.replicate n false ++ [true]) { s.link with rxLine := .looking }))
  ∧ ∀ s : State,
    exec .lnkclkStop s = .next { s with lnkclk := false }
    ∧ (s.lnkclk = true → exec .lnkclkReturn s = .next s.arbitrate)
    ∧ (s.lnkclk = false →
        exec .lnkclkReturn s = .next (({ s with
          lnkclk := true
          link := { s.link with
            rxLine := if s.link.rxLine = .broken then .broken else .awaitMark } } : State).arbitrate))
    ∧ exec .lnkRxReturnToMark s = .next { s with link := { s.link with
        rxLine := match s.link.rxLine with
          | .inByte samples => .inByte samples
          | _ => .looking } }
    ∧ (s.lnkclk = false →
        s.arbitrate = s
        ∧ (∀ samples, exec (.frameReceived samples) s = .next s)
        ∧ exec .transmitEnd s = .next s
        ∧ ∀ p, s.link.commandQueue.head? = some p → exec (decodeCommand p) s = .next s)

/-- A free transmitter of an operating part takes the head reply, else a notice frame of the oldest entry, else a stream frame
of up to 32 entries with the frame number advanced, else nothing; a busy one, or a stopped LNKCLK, takes nothing
(R145, R162, R164). The payload of a reply is its header and its data; that of a notice is its header and the contents
taken from the owning block at that moment; that of a stream frame is its header and its entries of 20 bytes (R174,
R175). A result record takes 64 bytes, all of them 0 where there is none (R175). The codes of the enumerations are in
`ReadsReportAndChangeNothing`. -/
def Obligations.ArbiterServesReplyNoticeStream : Prop :=
  let flagsByte := fun (f : QFlags) (overrange : Bool) =>
    ((if f.uncal then 1 else 0) + (if f.holdover then 2 else 0) + (if f.unsettled then 4 else 0)
      + (if overrange then 8 else 0) : Byte)
  let number := fun (c : Chan) => BitVec.ofNat 8 (c.val + 1)
  let contents := fun (s : State) (key : NoticeKey) =>
    match key with
    | .result k =>
      let sl := s.slot k
      ([1, BitVec.ofNat 8 k.val], leBytes 2 sl.publishCount.toNat
        ++ [(if sl.held then 1 else 0) + (if sl.lost then 2 else 0) + (if sl.waiting.isSome then 4 else 0)
            + (if sl.published.isSome then 8 else 0)]
        ++ leBytes 4 sl.stats.count ++ recordBytes sl.published)
    | .gate g =>
      let d := s.desc g
      ([2, BitVec.ofNat 8 g.val], [d.state.code, d.lastReason.code] ++ leBytes 2 d.noticeCount.toNat
        ++ leBytes 4 d.gateNumber.toNat ++ [if d.commitPending then 1 else 0, if d.lastGate then 1 else 0])
    | .timebase =>
      ([3, 0], [s.tb.state.code, s.tb.selected.code, s.tb.inForce.code, if s.tb.holdover then 1 else 0,
        s.tb.monitor.code] ++ leBytes 2 s.tb.changeCount.toNat ++ [s.tb.lastCause.code])
    | .cal c =>
      let ch := s.chan c
      ([4, number c], leBytes 2 ch.attempt.number.toNat
        ++ [ch.attempt.outcome.code, BitVec.ofNat 8 ch.attempt.spanFound] ++ leBytes 4 ch.attempt.hits
        ++ [if ch.calibrated then 1 else 0, BitVec.ofNat 8 ch.span])
    | .advise c =>
      let ch := s.chan c
      ([5, number c], leBytes 2 ch.outOfSpan ++ [BitVec.ofNat 8 ch.span, if ch.calibrated then 1 else 0,
        match ch.lastBin with
        | none => 0xFF
        | some b => BitVec.ofNat 8 b.val] ++ leBytes 2 ch.attempt.number.toNat)
  let entryBytes := fun (e : Entry) =>
    match e with
    | .stamp c n t f =>
      [1, number c, flagsByte f false, 0] ++ leBytes 6 n.toNat ++ [0, 0] ++ leBytes 8 t.toNat
    | .gap c k => [2, number c, 0, 0] ++ leBytes 4 k ++ [0, 0, 0, 0, 0, 0, 0, 0, 0, 0, 0, 0]
  (∀ s : State,
    (s.power ≠ .ready ∨ s.lnkclk = false ∨ s.link.tx ≠ none → s.arbitrate = s)
    ∧ (s.power = .ready → s.lnkclk = true → s.link.tx = none →
      (∀ r rest, s.link.replyQueue = r :: rest →
        s.arbitrate = { s with link := { s.link with
          replyQueue := rest
          tx := some {
            kind := 0x02
            payload := [r.code, if r.nak = none then 0 else 1,
                match r.nak with
                | none => 0
                | some .unknown => 1
                | some .length => 2
                | some .range => 3
                | some .busy => 4
                | some .invalid => 5
                | some .noRef => 6
                | some .noTimebase => 7, r.field]
              ++ leBytes 2 r.number.toNat ++ r.data
            restart := r.restart } } })
      ∧ (∀ e rest, s.link.replyQueue = [] → s.link.noticeQueue = e :: rest →
        s.arbitrate = { s with link := { s.link with
          noticeQueue := rest
          tx := some {
            kind := 0x03
            payload := (contents s e.key).1 ++ [BitVec.ofNat 8 e.postings, 0] ++ (contents s e.key).2
            restart := none } } })
      ∧ (s.link.replyQueue = [] → s.link.noticeQueue = [] → s.stream.fifo ≠ [] →
        s.arbitrate = { s with
          stream := { s.stream with fifo := s.stream.fifo.drop 32, frameNumber := s.stream.frameNumber + 1 }
          link := { s.link with tx := some {
            kind := 0x04
            payload := leBytes 2 (s.stream.frameNumber + 1).toNat
              ++ [BitVec.ofNat 8 (min 32 s.stream.fifo.length), 0]
              ++ leBytes 2 (s.stream.fifo.length - 32) ++ [0, 0]
              ++ (s.stream.fifo.take 32).flatMap entryBytes
            restart := none } } })
      ∧ (s.link.replyQueue = [] → s.link.noticeQueue = [] → s.stream.fifo = [] → s.arbitrate = s)))
  ∧ recordBytes none = List.replicate 64 0
  ∧ ∀ r : Record, (recordBytes (some r)).length = 64 ∧ recordBytes (some r) =
      ([BitVec.ofNat 8 r.desc.val, r.fn.code, r.completion.code, flagsByte r.flags r.overrange,
        (if r.value = none then 0 else 1) + (if r.secondaryDelta = none then 0 else 2), 0, 0, 0] : List Byte)
      ++ leBytes 4 r.gateNumber.toNat ++ [0, 0, 0, 0] ++ leBytes 8 r.tOpen.toNat ++ leBytes 8 r.tClose.toNat
      ++ leBytes 6 r.nOpen.toNat ++ leBytes 6 r.nClose.toNat
      ++ leBytes 6 (r.secondaryDelta.getD 0).toNat ++ [0, 0, 0, 0, 0, 0] ++ leSigned (r.value.getD 0)

/-- Every executed command leaves the command queue, takes the next execution number and places exactly one reply at the tail
of the reply queue, and a command that is refused changes nothing else in the part (R159, R160). A command of the right
row whose payload is not the length R173 gives it is answered NAK LENGTH, and a payload that is empty or names no
command NAK UNKNOWN, with byte 3 of the reply 1 for the empty one (R174). -/
def Obligations.ExecutedCommandPlacesOneReply : Prop :=
  (∀ (s : State) (i : Instr) (p : List Byte), i.payload = some p → s.executes p = true →
     ∃ (u : State) (a : Answer),
       exec i s = .next (({ u with link := { u.link with
         number := s.link.number + 1
         replyQueue := s.link.replyQueue ++ [
           { code := p.headD 0, nak := a.nak, field := a.field, number := s.link.number + 1
             data := a.data, restart := a.restart }] } } : State).arbitrate)
       ∧ u.link.commandQueue = (s.taken p).link.commandQueue
       ∧ (a.nak ≠ none → u = s.taken p ∧ a.data = [] ∧ a.restart = none))
  ∧ ((∀ (s : State) (i : Instr) (code : Byte) (args : List Byte) (n : Nat), i = decodeCommand (code :: args) →
       argLength code = some n → args.length ≠ n → s.executes (code :: args) = true →
       exec i s = .next ((s.taken (code :: args)).reply code (Answer.refuse .length)).arbitrate)
     ∧ (∀ (s : State) (code : Byte) (args : List Byte), argLength code = none →
       s.executes (code :: args) = true →
       decodeCommand (code :: args) = .unknownCommand (code :: args)
       ∧ exec (.unknownCommand (code :: args)) s =
           .next ((s.taken (code :: args)).reply code (Answer.refuse .unknown)).arbitrate)
     ∧ (∀ s : State, s.executes [] = true →
       exec (.unknownCommand []) s = .next ((s.taken []).reply 0
         { nak := some .unknown, field := 1, data := [], restart := none }).arbitrate))

/-- A command at the head of the queue waits there with no effect while the part is held in a power-on reset, LNKCLK is
stopped, a restart is pending, eight replies wait, or, for a GATE command of the right length, its descriptor is between
its close event and its record, and for no other cause; that a GATE command of a wrong length does not wait is the
model's choice (notes/assumptions/24.md). The frame of a command whose row finds four others waiting is
an overrun (R92, R153, R158, R159, R170). The second half rests on the model's reading of a command row whose frame
is not at the head of the queue (notes/assumptions/2.md). -/
def Obligations.CommandWaitsOrOverruns : Prop :=
  ∀ (s : State) (i : Instr) (p : List Byte), i.payload = some p →
    let names := fun (g : Desc) =>
      p = [0x41, eightByte g] ∨ p = [0x42, eightByte g] ∨ p = [0x44, eightByte g]
      ∨ (∃ m : Byte, p = [0x43, eightByte g, m])
      ∨ ∃ copy : List Byte, copy.length = 20 ∧ p = 0x40 :: eightByte g :: copy
    let held := s.power ≠ .ready ∨ s.lnkclk = false ∨ s.link.restart ≠ none ∨ 8 ≤ s.link.replyQueue.length
      ∨ ∃ g : Desc, names g ∧ (s.desc g).closeEvent ≠ none
    (s.canExecute p = false ↔ held)
    ∧ (s.link.commandQueue.head? = some p → held → exec i s = .next s.arbitrate)
    ∧ (s.link.commandQueue.head? ≠ some p → s.link.commandQueue.length = 4 → s.power = .ready →
        s.lnkclk = true → s.link.rxLine = .looking ∨ s.link.rxLine = .awaitMark → s.link.rxBuffer = [] →
        exec i s = .next (({ s with link := { s.link with
          rxLine := .looking, rxGap := false
          overruns := if s.link.overruns < 65535 then s.link.overruns + 1 else s.link.overruns } } :
          State).arbitrate))

/-! ## Status and restarts (R157, R164, R166 to R171) -/

/-- IDENTIFY answers in every state with its fixed values and changes nothing (R168). -/
def Obligations.IdentifyReportsThePart : Prop :=
  ∀ s : State, s.executes [0x01] = true →
    exec (.identify []) s = .next ((s.taken [0x01]).reply 0x01 (Answer.ack
      [0x34, 0x0B, 0x01, 0x00, 4, 5, 8, 8, 0x00, 0x10, 32, 160, 0x00, 0x00, 0x01, 0x00, 25, 4, 8, 0x10, 0x04,
        0x00, 0x04, 0x00, 0x84, 0xD7, 0x17])).arbitrate

/-- CHANNEL READ, TABLE READ and GATE READ answer with the fields of their object in the order and the lengths of R174 and
R176, and change nothing; a number that names no object is refused with RANGE (R38, R74, R101). STATUS does the same for
the part, and with its clear option empties the reset-cause record and the link counters once its contents are taken
(R169). Numbers go least significant byte first, signed values in two's complement, and enumerations by the codes of R172.
That the parts of STATUS are taken at one instant (notes/assumptions/27.md), and that GATE READ at the tick of a
TOTALIZE opening gives the opening sample as counted so far (notes/assumptions/28.md), are the model's choices. -/
def Obligations.ReadsReportAndChangeNothing : Prop :=
  let flag := fun (b : Bool) => if b then (1 : Byte) else 0
  let optChan := fun (c : Option Chan) => match c with
    | none => (0 : Byte)
    | some c => BitVec.ofNat 8 (c.val + 1)
  let copy := fun (cp : GateCopy) =>
    ([cp.fn.code, optChan cp.primary, optChan cp.secondary,
      match cp.mode with
      | .none => 0
      | .time _ => 1
      | .count _ => 2
      | .aux => 3] : List Byte)
    ++ leBytes 8 (match cp.mode with
      | .none => 0
      | .time len => len
      | .count len => len
      | .aux => 0)
    ++ ([match cp.arm with
        | .immediate => 0
        | .aux => 1
        | .chain _ => 2,
      match cp.arm with
      | .immediate => 0
      | .aux => 0
      | .chain g => BitVec.ofNat 8 g.val,
      flag cp.continuous,
      match cp.timeout with
      | none => 0xFF
      | some e => BitVec.ofNat 8 e,
      BitVec.ofNat 8 cp.slot.val, 0, 0, 0] : List Byte)
  let snapshot := fun (tb : Timebase) =>
    [tb.selected.code, tb.refFreq.code, flag tb.lossDetect, tb.lossAction.code, flag tb.autoRevert, tb.state.code,
      tb.inForce.code, flag tb.holdover, tb.monitor.code, BitVec.ofNat 8 tb.runCount]
    ++ leBytes 2 tb.changeCount.toNat ++ [tb.lastCause.code] ++ leBytes 8 tb.coarse.toNat
  let answers := fun (s : State) (i : Instr) (code b : Byte) (data : List Byte) (size : Nat) =>
    exec i s = .next ((s.taken [code, b]).reply code (Answer.ack data)).arbitrate ∧ data.length = size
  (∀ (s : State) (b : Byte), s.executes [0x22, b] = true →
    (¬(1 ≤ b.toNat ∧ b.toNat ≤ 4) →
      exec (.channelRead [b]) s = .next ((s.taken [0x22, b]).reply 0x22 (Answer.refuse .range)).arbitrate)
    ∧ (∀ c : Chan, b.toNat = c.val + 1 → let ch := s.chan c
      answers s (.channelRead [b]) 0x22 b
        ([b, bindingCode ch.set.binding, ch.set.polarity.code] ++ leBytes 2 ch.set.holdoff.toNat
          ++ [BitVec.ofNat 8 ch.set.prescale] ++ leBytes 2 ch.set.skew.toNat
          ++ [flag ch.set.inhibitObey, flag ch.streamEnable, (s.chanState c).code] ++ leBytes 6 ch.n.toNat
          ++ [s.aux.role.code, if s.aux.activeHigh then 1 else 2]) 19))
  ∧ (∀ (s : State) (b : Byte), s.executes [0x31, b] = true →
    (¬(1 ≤ b.toNat ∧ b.toNat ≤ 4) →
      exec (.tableRead [b]) s = .next ((s.taken [0x31, b]).reply 0x31 (Answer.refuse .range)).arbitrate)
    ∧ (∀ c : Chan, b.toNat = c.val + 1 → let ch := s.chan c
      answers s (.tableRead [b]) 0x31 b
        ([b, flag ch.calibrated, BitVec.ofNat 8 ch.span, (s.chanState c).code]
          ++ leBytes 2 ch.attempt.number.toNat ++ [ch.attempt.outcome.code, BitVec.ofNat 8 ch.attempt.spanFound]
          ++ leBytes 4 ch.attempt.hits
          ++ [flag ch.adviceArmed, match ch.lastBin with
              | none => 0xFF
              | some x => BitVec.ofNat 8 x.val]
          ++ leBytes 2 ch.outOfSpan ++ ch.table.toList.flatMap (leBytes 2)
          ++ ch.histogram.toList.flatMap (leBytes 4)) 976))
  ∧ (∀ (s : State) (b : Byte), s.executes [0x44, b] = true →
    (8 ≤ b.toNat →
      exec (.gateRead [b]) s = .next ((s.taken [0x44, b]).reply 0x44 (Answer.refuse .range)).arbitrate)
    ∧ (∀ g : Desc, b.toNat = g.val → let d := s.desc g
      let cEnd := d.ctx.bind (fun k => k.cEnd)
      answers s (.gateRead [b]) 0x44 b
        (copy d.staged ++ copy d.active ++ [d.state.code, flag d.commitPending, flag d.lastGate, 0]
          ++ leBytes 4 d.gateNumber.toNat
          ++ [flag d.ctx.isSome + 2 * flag cEnd.isSome + 4 * flag d.timeoutAt.isSome]
          ++ (match d.ctx with
            | none => leBytes 14 0
            | some k => match k.openStamp, d.active.primary with
              | some st, _ => leBytes 6 st.n.toNat ++ leBytes 8 st.t.toNat
              | none, some c => leBytes 6 k.opening.counts[c].toNat ++ leBytes 8 (k.opening.instant.toNat * 1024)
              | none, none => leBytes 6 0 ++ leBytes 8 (k.opening.instant.toNat * 1024))
          ++ leBytes 8 (match cEnd with
            | none => 0
            | some x => x.toNat)
          ++ leBytes 8 (match d.timeoutAt with
            | none => 0
            | some x => x.toNat)
          ++ leBytes 2 d.noticeCount.toNat ++ [d.lastReason.code]) 82))
  ∧ (∀ (s : State) (b : Byte), s.executes [0x02, b] = true → let t := s.taken [0x02, b]
    (2 ≤ b.toNat → exec (.status [b]) s = .next (t.reply 0x02 (Answer.invalid 1)).arbitrate)
    ∧ (b.toNat ≤ 1 → ∃ (data : List Byte) (held waiting lost : Byte),
      (∀ k : SlotId, held.getLsbD k.val = (s.slot k).held ∧ waiting.getLsbD k.val = (s.slot k).waiting.isSome
        ∧ lost.getLsbD k.val = (s.slot k).lost)
      ∧ data = [flag s.causes.power + 2 * flag s.causes.full + 4 * flag s.causes.brk + 8 * flag s.causes.measure]
        ++ snapshot s.tb
        ++ [(s.chanState 0).code, (s.chanState 1).code, (s.chanState 2).code, (s.chanState 3).code,
          match s.cal with
          | none => 0xFF
          | some r => BitVec.ofNat 8 (r.chan.val + 1)]
        ++ ([0, 1, 2, 3, 4, 5, 6, 7] : List Desc).flatMap (fun g =>
          [(s.desc g).state.code, flag (s.desc g).commitPending, flag (s.desc g).lastGate])
        ++ [held, 0, waiting, 0, lost, 0] ++ leBytes 2 s.stream.fifo.length
        ++ leBytes 4 s.stream.drops[0] ++ leBytes 4 s.stream.drops[1] ++ leBytes 4 s.stream.drops[2]
        ++ leBytes 4 s.stream.drops[3] ++ [BitVec.ofNat 8 s.link.noticeQueue.length]
        ++ leBytes 2 s.link.crcErrors ++ leBytes 2 s.link.lengthErrors ++ leBytes 2 s.link.truncated
        ++ leBytes 2 s.link.overruns
      ∧ data.length = 84
      ∧ exec (.status [b]) s = .next ((if b = 1 then
        { t with
          causes := { power := false, full := false, brk := false, measure := false }
          link := { t.link with crcErrors := 0, lengthErrors := 0, truncated := 0, overruns := 0 } }
        else t).reply 0x02 (Answer.ack data)).arbitrate))
  ∧ (∀ (cp : GateCopy) (tb : Timebase), cp.bytes = copy cp ∧ tb.snapshot = snapshot tb)
  ∧ (∀ k v j : Nat, (leBytes k v)[j]? = if j < k then some (BitVec.ofNat 8 (v / 256 ^ j)) else none)
  ∧ (∀ v : Int, leSigned v = leBytes 8 (v % 2 ^ 64).toNat)
  ∧ [Source.none, .ext, .int].map Source.code = [0, 1, 2] ∧ [RefFreq.mhz10, .mhz20].map RefFreq.code = [1, 2]
  ∧ [LossAction.switch, .halt].map LossAction.code = [1, 2]
  ∧ [TbState.halt, .acquire, .run, .relock].map TbState.code = [0, 1, 2, 3]
  ∧ [Monitor.absent, .present, .good].map Monitor.code = [0, 1, 2]
  ∧ [TbCause.none, .start, .acquired, .stop, .select, .loss, .revert, .relocked].map TbCause.code =
      [0, 1, 2, 3, 4, 5, 6, 7]
  ∧ [AuxRole.arm, .gate, .inhibit, .signal].map AuxRole.code = [1, 2, 3, 4]
  ∧ [none, some PhysIn.in1, some .in2, some .in3, some .in4, some .aux].map bindingCode = [0, 1, 2, 3, 4, 5]
  ∧ [Polarity.rise, .fall, .both].map Polarity.code = [1, 2, 3]
  ∧ [ChanState.online, .parked, .calibrating].map ChanState.code = [0, 1, 2]
  ∧ [CalOutcome.none, .inProgress, .success, .lineShort, .span, .binWidth, .osc, .timebase, .restart].map
      CalOutcome.code = [0, 1, 2, 3, 4, 5, 6, 7, 8]
  ∧ [Fn.none, .freq, .period, .interval, .totalize, .ratio].map Fn.code = [0, 1, 2, 3, 4, 5]
  ∧ [DState.off, .waitArm, .armed, .gateOpen, .closing].map DState.code = [0, 1, 2, 3, 4]
  ∧ [GateReason.none, .noSignal, .timebase].map GateReason.code = [0, 1, 2]
  ∧ [Completion.normal, .stopped, .short, .noClose].map Completion.code = [0, 1, 2, 3]

/-- RESTART with an allowed kind only marks the restart as pending and answers with an ACK that carries the kind, after which
no command is executed; another kind is an ordinary refused command (R159, R170). -/
def Obligations.RestartWaitsForItsAck : Prop :=
  ∀ (s : State) (b : Byte), s.executes [0x03, b] = true →
    let t := s.taken [0x03, b]
    let pendingAck := fun (kind : RestartKind) =>
      ({ t with link := { t.link with restart := some kind } } : State).reply 0x03
        { nak := none, field := 0, data := [b], restart := some kind }
    (b = 2 → exec (.restartFull [b]) s = .next (pendingAck .full).arbitrate
      ∧ ∀ p, (pendingAck .full).arbitrate.canExecute p = false)
    ∧ (b = 1 → exec (.restartMeasure [b]) s = .next (pendingAck .measure).arbitrate
      ∧ ∀ p, (pendingAck .measure).arbitrate.canExecute p = false)
    ∧ (b ≠ 1 → b ≠ 2 →
        exec (.restartMeasure [b]) s = .next (t.reply 0x03 (Answer.invalid 1)).arbitrate)

/-- The end of a frame frees the transmitter, and the arbiter picks (R164); with no frame on the line there is none to end. The
end of a RESTART's ACK makes the restart take effect first (R170). MEASURE keeps the timebase, AUX, the settings, the
stream enables, the dead times, the copies, the tables, the mask, the link counters and the execution number, and clears
counts, holdoffs, gates, slots, stream and queues; FULL puts all of these but the tables, with their out-of-span counts,
and the attempts at their power-on values. Both end a running attempt with outcome RESTART and add their cause; the
whole state after each is given (R20, R39, R56, R70, R75, R103, R137, R151, R166, R167). That a byte in reception on LNK_RX
goes on after FULL is the model's choice (notes/assumptions/17.md), and so is the phase at which FULL leaves the monitor's
divider, which R20 does not give (notes/assumptions/22.md); that no tick has come is deduced from R6
(notes/assumptions/30.md), and that the event does nothing with no frame on the line is notes/assumptions/5.md. -/
def Obligations.TransmitEndFreesAndRestarts : Prop :=
  ∀ s : State, s.power = .ready → s.lnkclk = true →
    (s.link.tx = none → exec .transmitEnd s = .next s.arbitrate)
    ∧ ∀ f : TxFrame, s.link.tx = some f →
      let free : Link := { s.link with tx := none }
      (f.restart = none → exec .transmitEnd s = .next ({ s with link := free } : State).arbitrate)
      ∧ (f.restart = some .measure → ∃ u : State, exec .transmitEnd s = .next u.arbitrate
        ∧ s.measureRestarted u ∧ u.causes = { s.causes with measure := true }
        ∧ u.link = { free with commandQueue := [], replyQueue := [], noticeQueue := [], restart := none })
      ∧ (f.restart = some .full → ∃ u : State, exec .transmitEnd s = .next u.arbitrate
        ∧ s.fullRestarted u ∧ u.causes = { s.causes with full := true }
        ∧ u.link = { rxLine := s.link.rxLine, rxBuffer := [], rxGap := false, commandQueue := [], replyQueue := []
                     noticeQueue := []
                     mask := { result := true, gate := true, timebase := true, cal := true, advise := true
                               slots := 0xFF }
                     crcErrors := 0, lengthErrors := 0, truncated := 0, overruns := 0, number := 0, tx := none
                     restart := none })

/-- A link break takes effect at once as a RESTART FULL in every block, with the whole state after it given, and adds BREAK to
the record, leaving FULL as it was. A frame on the line goes on to its end and starts nothing there, the receiver's
candidate, the queues and a pending restart are gone, and no second break is detected before LNK_RX has returned to
mark (R20, R39, R56, R70, R75, R103, R137, R151, R157, R166, R167, R170). The phase in which the break leaves the monitor's
divider is the model's choice, not R20's (notes/assumptions/22.md), and that no tick has come is deduced from R6
(notes/assumptions/30.md). -/
def Obligations.LinkBreakRestartsAtOnce : Prop :=
  ∀ s : State, s.power = .ready →
    (s.link.rxLine = .broken → exec .linkBreak s = .next s.arbitrate)
    ∧ (s.link.rxLine ≠ .broken → ∃ u : State, exec .linkBreak s = .next u.arbitrate
      ∧ s.fullRestarted u ∧ u.causes = { s.causes with brk := true }
      ∧ u.link = { rxLine := .broken, rxBuffer := [], rxGap := false, commandQueue := [], replyQueue := []
                   noticeQueue := []
                   mask := { result := true, gate := true, timebase := true, cal := true, advise := true
                             slots := 0xFF }
                   crcErrors := 0, lengthErrors := 0, truncated := 0, overruns := 0, number := 0
                   tx := s.link.tx.map (fun f => { f with restart := none }), restart := none })

/-! ## Encodings -/

/-- The payload of a command row decodes to that row, with every argument byte, once RESTART and GATE STOP stand under the
row their argument gives them and UNKNOWN_COMMAND carries a payload that names no command; and every payload is the
payload of the row it decodes to: no byte of it is dropped (R159, R173). That RESTART and GATE STOP have two rows each,
split so, is the opcode table's and the model's choice (notes/assumptions/18.md). -/
def Obligations.PayloadAndRowAgree : Prop :=
  (∀ (i : Instr) (p : List Byte), i.payload = some p →
    (∀ code args, i = .unknownCommand (code :: args) → argLength code = none) →
    (∀ args, i = .restartFull args → args = [2]) →
    (∀ args, i = .restartMeasure args → args ≠ [2]) →
    (∀ args, i = .gateStopAbort args → ∃ g, args = [g, 2]) →
    (∀ args, i = .gateStopFinish args → ∀ g, args ≠ [g, 2]) →
    decodeCommand p = i)
  ∧ ∀ p : List Byte, (decodeCommand p).payload = some p

/-! ## Invariants that every step keeps -/

/-- The part after reset is sound in every block. -/
def Obligations.ResetIsSound : Prop :=
  State.reset.timebaseSound ∧ State.reset.calSound ∧ State.reset.engineSound ∧ State.reset.storeSound
  ∧ State.reset.stream.sound ∧ State.reset.link.sound

/-- Every step keeps the timebase sound: source in force, holdover, phase timer, run count and calibration go with the state
(R1, R4, R5, R13, R69). -/
def Obligations.StepKeepsTimebaseSound : Prop :=
  ∀ s t : State, s.timebaseSound → step s = .next t → t.timebaseSound

/-- Every step keeps every table's law, every histogram in agreement with its attempt, and the outcome IN_PROGRESS to the
channel in calibration (R45, R46, R57, R58, R59). -/
def Obligations.StepKeepsCalibrationSound : Prop :=
  ∀ s t : State, s.calSound → step s = .next t → t.calSound

/-- Every step keeps the descriptors sound: a pending commit and a close event only in OPEN and CLOSING, a running descriptor
only with the timebase in RUN or RELOCK and its used channels ONLINE (R27, R77, R82, R84, R94, R100). -/
def Obligations.StepKeepsEngineSound : Prop :=
  ∀ s t : State, s.engineSound → step s = .next t → t.engineSound

/-- Every step keeps pending records to held slots and the mean of every slot between its minimum and maximum (R124, R129,
R132), and the FIFO within its size with every GAP followed by its STAMP (R138, R144). -/
def Obligations.StepKeepsStoreAndStreamSound : Prop :=
  ∀ s t : State, s.storeSound → s.stream.sound → step s = .next t → t.storeSound ∧ t.stream.sound

/-- Every step keeps the link's queues within their sizes, one notice for each kind and object, and the counters within
65,535 (R158, R159, R161, R165, R170). -/
def Obligations.StepKeepsLinkSound : Prop :=
  ∀ s t : State, s.link.sound → step s = .next t → t.link.sound
end

