-- ==== Sys2Proof/Laws/State.lean ====
section
/-! SUPPORT. What each accessor and each update of the state leaves in each field, so that no later proof unfolds a record update. -/

namespace Sys2Proof.Machine

/-! ## `modTb` -/

@[simp] theorem State.modTb_power (s : State) (f : Timebase → Timebase) : (s.modTb f).power = s.power := rfl
@[simp] theorem State.modTb_lnkclk (s : State) (f : Timebase → Timebase) : (s.modTb f).lnkclk = s.lnkclk := rfl
@[simp] theorem State.modTb_levels (s : State) (f : Timebase → Timebase) : (s.modTb f).levels = s.levels := rfl
@[simp] theorem State.modTb_aux (s : State) (f : Timebase → Timebase) : (s.modTb f).aux = s.aux := rfl
@[simp] theorem State.modTb_tb (s : State) (f : Timebase → Timebase) : (s.modTb f).tb = f s.tb := rfl
@[simp] theorem State.modTb_chans (s : State) (f : Timebase → Timebase) : (s.modTb f).chans = s.chans := rfl
@[simp] theorem State.modTb_cal (s : State) (f : Timebase → Timebase) : (s.modTb f).cal = s.cal := rfl
@[simp] theorem State.modTb_descs (s : State) (f : Timebase → Timebase) : (s.modTb f).descs = s.descs := rfl
@[simp] theorem State.modTb_slots (s : State) (f : Timebase → Timebase) : (s.modTb f).slots = s.slots := rfl
@[simp] theorem State.modTb_stream (s : State) (f : Timebase → Timebase) : (s.modTb f).stream = s.stream := rfl
@[simp] theorem State.modTb_link (s : State) (f : Timebase → Timebase) : (s.modTb f).link = s.link := rfl
@[simp] theorem State.modTb_causes (s : State) (f : Timebase → Timebase) : (s.modTb f).causes = s.causes := rfl
@[simp] theorem State.modTb_pending (s : State) (f : Timebase → Timebase) : (s.modTb f).pending = s.pending := rfl
@[simp] theorem State.modTb_chan (s : State) (f : Timebase → Timebase) (d : Chan) : (s.modTb f).chan d = s.chan d := rfl
@[simp] theorem State.modTb_desc (s : State) (f : Timebase → Timebase) (h : Desc) : (s.modTb f).desc h = s.desc h := rfl
@[simp] theorem State.modTb_slot (s : State) (f : Timebase → Timebase) (j : SlotId) : (s.modTb f).slot j = s.slot j := rfl

/-! ## `modLink` -/

@[simp] theorem State.modLink_power (s : State) (f : Link → Link) : (s.modLink f).power = s.power := rfl
@[simp] theorem State.modLink_lnkclk (s : State) (f : Link → Link) : (s.modLink f).lnkclk = s.lnkclk := rfl
@[simp] theorem State.modLink_levels (s : State) (f : Link → Link) : (s.modLink f).levels = s.levels := rfl
@[simp] theorem State.modLink_aux (s : State) (f : Link → Link) : (s.modLink f).aux = s.aux := rfl
@[simp] theorem State.modLink_tb (s : State) (f : Link → Link) : (s.modLink f).tb = s.tb := rfl
@[simp] theorem State.modLink_chans (s : State) (f : Link → Link) : (s.modLink f).chans = s.chans := rfl
@[simp] theorem State.modLink_cal (s : State) (f : Link → Link) : (s.modLink f).cal = s.cal := rfl
@[simp] theorem State.modLink_descs (s : State) (f : Link → Link) : (s.modLink f).descs = s.descs := rfl
@[simp] theorem State.modLink_slots (s : State) (f : Link → Link) : (s.modLink f).slots = s.slots := rfl
@[simp] theorem State.modLink_stream (s : State) (f : Link → Link) : (s.modLink f).stream = s.stream := rfl
@[simp] theorem State.modLink_link (s : State) (f : Link → Link) : (s.modLink f).link = f s.link := rfl
@[simp] theorem State.modLink_causes (s : State) (f : Link → Link) : (s.modLink f).causes = s.causes := rfl
@[simp] theorem State.modLink_pending (s : State) (f : Link → Link) : (s.modLink f).pending = s.pending := rfl
@[simp] theorem State.modLink_chan (s : State) (f : Link → Link) (d : Chan) : (s.modLink f).chan d = s.chan d := rfl
@[simp] theorem State.modLink_desc (s : State) (f : Link → Link) (h : Desc) : (s.modLink f).desc h = s.desc h := rfl
@[simp] theorem State.modLink_slot (s : State) (f : Link → Link) (j : SlotId) : (s.modLink f).slot j = s.slot j := rfl

/-! ## `modStream` -/

@[simp] theorem State.modStream_power (s : State) (f : StreamUnit → StreamUnit) : (s.modStream f).power = s.power := rfl
@[simp] theorem State.modStream_lnkclk (s : State) (f : StreamUnit → StreamUnit) : (s.modStream f).lnkclk = s.lnkclk := rfl
@[simp] theorem State.modStream_levels (s : State) (f : StreamUnit → StreamUnit) : (s.modStream f).levels = s.levels := rfl
@[simp] theorem State.modStream_aux (s : State) (f : StreamUnit → StreamUnit) : (s.modStream f).aux = s.aux := rfl
@[simp] theorem State.modStream_tb (s : State) (f : StreamUnit → StreamUnit) : (s.modStream f).tb = s.tb := rfl
@[simp] theorem State.modStream_chans (s : State) (f : StreamUnit → StreamUnit) : (s.modStream f).chans = s.chans := rfl
@[simp] theorem State.modStream_cal (s : State) (f : StreamUnit → StreamUnit) : (s.modStream f).cal = s.cal := rfl
@[simp] theorem State.modStream_descs (s : State) (f : StreamUnit → StreamUnit) : (s.modStream f).descs = s.descs := rfl
@[simp] theorem State.modStream_slots (s : State) (f : StreamUnit → StreamUnit) : (s.modStream f).slots = s.slots := rfl
@[simp] theorem State.modStream_stream (s : State) (f : StreamUnit → StreamUnit) : (s.modStream f).stream = f s.stream := rfl
@[simp] theorem State.modStream_link (s : State) (f : StreamUnit → StreamUnit) : (s.modStream f).link = s.link := rfl
@[simp] theorem State.modStream_causes (s : State) (f : StreamUnit → StreamUnit) : (s.modStream f).causes = s.causes := rfl
@[simp] theorem State.modStream_pending (s : State) (f : StreamUnit → StreamUnit) : (s.modStream f).pending = s.pending := rfl
@[simp] theorem State.modStream_chan (s : State) (f : StreamUnit → StreamUnit) (d : Chan) : (s.modStream f).chan d = s.chan d := rfl
@[simp] theorem State.modStream_desc (s : State) (f : StreamUnit → StreamUnit) (h : Desc) : (s.modStream f).desc h = s.desc h := rfl
@[simp] theorem State.modStream_slot (s : State) (f : StreamUnit → StreamUnit) (j : SlotId) : (s.modStream f).slot j = s.slot j := rfl

/-! ## `modChan` -/

@[simp] theorem State.modChan_power (s : State) (c : Chan) (f : Channel → Channel) : (s.modChan c f).power = s.power := rfl
@[simp] theorem State.modChan_lnkclk (s : State) (c : Chan) (f : Channel → Channel) : (s.modChan c f).lnkclk = s.lnkclk := rfl
@[simp] theorem State.modChan_levels (s : State) (c : Chan) (f : Channel → Channel) : (s.modChan c f).levels = s.levels := rfl
@[simp] theorem State.modChan_aux (s : State) (c : Chan) (f : Channel → Channel) : (s.modChan c f).aux = s.aux := rfl
@[simp] theorem State.modChan_tb (s : State) (c : Chan) (f : Channel → Channel) : (s.modChan c f).tb = s.tb := rfl
@[simp] theorem State.modChan_cal (s : State) (c : Chan) (f : Channel → Channel) : (s.modChan c f).cal = s.cal := rfl
@[simp] theorem State.modChan_descs (s : State) (c : Chan) (f : Channel → Channel) : (s.modChan c f).descs = s.descs := rfl
@[simp] theorem State.modChan_slots (s : State) (c : Chan) (f : Channel → Channel) : (s.modChan c f).slots = s.slots := rfl
@[simp] theorem State.modChan_stream (s : State) (c : Chan) (f : Channel → Channel) : (s.modChan c f).stream = s.stream := rfl
@[simp] theorem State.modChan_link (s : State) (c : Chan) (f : Channel → Channel) : (s.modChan c f).link = s.link := rfl
@[simp] theorem State.modChan_causes (s : State) (c : Chan) (f : Channel → Channel) : (s.modChan c f).causes = s.causes := rfl
@[simp] theorem State.modChan_pending (s : State) (c : Chan) (f : Channel → Channel) : (s.modChan c f).pending = s.pending := rfl
@[simp] theorem State.modChan_desc (s : State) (c : Chan) (f : Channel → Channel) (h : Desc) : (s.modChan c f).desc h = s.desc h := rfl
@[simp] theorem State.modChan_slot (s : State) (c : Chan) (f : Channel → Channel) (j : SlotId) : (s.modChan c f).slot j = s.slot j := rfl

/-! ## `modDesc` -/

@[simp] theorem State.modDesc_power (s : State) (g : Desc) (f : Descriptor → Descriptor) : (s.modDesc g f).power = s.power := rfl
@[simp] theorem State.modDesc_lnkclk (s : State) (g : Desc) (f : Descriptor → Descriptor) : (s.modDesc g f).lnkclk = s.lnkclk := rfl
@[simp] theorem State.modDesc_levels (s : State) (g : Desc) (f : Descriptor → Descriptor) : (s.modDesc g f).levels = s.levels := rfl
@[simp] theorem State.modDesc_aux (s : State) (g : Desc) (f : Descriptor → Descriptor) : (s.modDesc g f).aux = s.aux := rfl
@[simp] theorem State.modDesc_tb (s : State) (g : Desc) (f : Descriptor → Descriptor) : (s.modDesc g f).tb = s.tb := rfl
@[simp] theorem State.modDesc_chans (s : State) (g : Desc) (f : Descriptor → Descriptor) : (s.modDesc g f).chans = s.chans := rfl
@[simp] theorem State.modDesc_cal (s : State) (g : Desc) (f : Descriptor → Descriptor) : (s.modDesc g f).cal = s.cal := rfl
@[simp] theorem State.modDesc_slots (s : State) (g : Desc) (f : Descriptor → Descriptor) : (s.modDesc g f).slots = s.slots := rfl
@[simp] theorem State.modDesc_stream (s : State) (g : Desc) (f : Descriptor → Descriptor) : (s.modDesc g f).stream = s.stream := rfl
@[simp] theorem State.modDesc_link (s : State) (g : Desc) (f : Descriptor → Descriptor) : (s.modDesc g f).link = s.link := rfl
@[simp] theorem State.modDesc_causes (s : State) (g : Desc) (f : Descriptor → Descriptor) : (s.modDesc g f).causes = s.causes := rfl
@[simp] theorem State.modDesc_pending (s : State) (g : Desc) (f : Descriptor → Descriptor) : (s.modDesc g f).pending = s.pending := rfl
@[simp] theorem State.modDesc_chan (s : State) (g : Desc) (f : Descriptor → Descriptor) (d : Chan) : (s.modDesc g f).chan d = s.chan d := rfl
@[simp] theorem State.modDesc_slot (s : State) (g : Desc) (f : Descriptor → Descriptor) (j : SlotId) : (s.modDesc g f).slot j = s.slot j := rfl

/-! ## `modSlot` -/

@[simp] theorem State.modSlot_power (s : State) (k : SlotId) (f : Slot → Slot) : (s.modSlot k f).power = s.power := rfl
@[simp] theorem State.modSlot_lnkclk (s : State) (k : SlotId) (f : Slot → Slot) : (s.modSlot k f).lnkclk = s.lnkclk := rfl
@[simp] theorem State.modSlot_levels (s : State) (k : SlotId) (f : Slot → Slot) : (s.modSlot k f).levels = s.levels := rfl
@[simp] theorem State.modSlot_aux (s : State) (k : SlotId) (f : Slot → Slot) : (s.modSlot k f).aux = s.aux := rfl
@[simp] theorem State.modSlot_tb (s : State) (k : SlotId) (f : Slot → Slot) : (s.modSlot k f).tb = s.tb := rfl
@[simp] theorem State.modSlot_chans (s : State) (k : SlotId) (f : Slot → Slot) : (s.modSlot k f).chans = s.chans := rfl
@[simp] theorem State.modSlot_cal (s : State) (k : SlotId) (f : Slot → Slot) : (s.modSlot k f).cal = s.cal := rfl
@[simp] theorem State.modSlot_descs (s : State) (k : SlotId) (f : Slot → Slot) : (s.modSlot k f).descs = s.descs := rfl
@[simp] theorem State.modSlot_stream (s : State) (k : SlotId) (f : Slot → Slot) : (s.modSlot k f).stream = s.stream := rfl
@[simp] theorem State.modSlot_link (s : State) (k : SlotId) (f : Slot → Slot) : (s.modSlot k f).link = s.link := rfl
@[simp] theorem State.modSlot_causes (s : State) (k : SlotId) (f : Slot → Slot) : (s.modSlot k f).causes = s.causes := rfl
@[simp] theorem State.modSlot_pending (s : State) (k : SlotId) (f : Slot → Slot) : (s.modSlot k f).pending = s.pending := rfl
@[simp] theorem State.modSlot_chan (s : State) (k : SlotId) (f : Slot → Slot) (d : Chan) : (s.modSlot k f).chan d = s.chan d := rfl
@[simp] theorem State.modSlot_desc (s : State) (k : SlotId) (f : Slot → Slot) (h : Desc) : (s.modSlot k f).desc h = s.desc h := rfl

/-! ## Lookups behind an update of one object -/

theorem State.chan_modChan (s : State) (c d : Chan) (f : Channel → Channel) :
    (s.modChan c f).chan d = if d = c then f (s.chan c) else s.chan d := by
  simp only [State.chan, State.modChan, Fin.getElem_fin, Vector.getElem_set, Fin.ext_iff]
  by_cases h : c.val = d.val
  · simp [h]
  · rw [if_neg h, if_neg (fun e => h e.symm)]

theorem State.desc_modDesc (s : State) (g h : Desc) (f : Descriptor → Descriptor) :
    (s.modDesc g f).desc h = if h = g then f (s.desc g) else s.desc h := by
  simp only [State.desc, State.modDesc, Fin.getElem_fin, Vector.getElem_set, Fin.ext_iff]
  by_cases e : g.val = h.val
  · simp [e]
  · rw [if_neg e, if_neg (fun x => e x.symm)]

theorem State.slot_modSlot (s : State) (k j : SlotId) (f : Slot → Slot) :
    (s.modSlot k f).slot j = if j = k then f (s.slot k) else s.slot j := by
  simp only [State.slot, State.modSlot, Fin.getElem_fin, Vector.getElem_set, Fin.ext_iff]
  by_cases e : k.val = j.val
  · simp [e]
  · rw [if_neg e, if_neg (fun x => e x.symm)]

@[simp] theorem State.chan_modChan_self (s : State) (c : Chan) (f : Channel → Channel) :
    (s.modChan c f).chan c = f (s.chan c) := by simp [State.chan_modChan]

@[simp] theorem State.desc_modDesc_self (s : State) (g : Desc) (f : Descriptor → Descriptor) :
    (s.modDesc g f).desc g = f (s.desc g) := by simp [State.desc_modDesc]

@[simp] theorem State.slot_modSlot_self (s : State) (k : SlotId) (f : Slot → Slot) :
    (s.modSlot k f).slot k = f (s.slot k) := by simp [State.slot_modSlot]

/-! ## The counter -/

@[simp] theorem State.atCount_power (s : State) (x : Coarse) : (s.atCount x).power = s.power := rfl
@[simp] theorem State.atCount_tb (s : State) (x : Coarse) : (s.atCount x).tb = s.tb.movedTo x := rfl
@[simp] theorem State.atCount_chan (s : State) (x : Coarse) (c : Chan) : (s.atCount x).chan c = s.chan c := rfl
@[simp] theorem State.atCount_desc (s : State) (x : Coarse) (g : Desc) : (s.atCount x).desc g = s.desc g := rfl
@[simp] theorem State.atCount_cal (s : State) (x : Coarse) : (s.atCount x).cal = s.cal := rfl
@[simp] theorem Timebase.movedTo_coarse (tb : Timebase) (x : Coarse) : (tb.movedTo x).coarse = x := rfl
@[simp] theorem Timebase.movedTo_counting (tb : Timebase) (x : Coarse) : (tb.movedTo x).counting = tb.counting := rfl
@[simp] theorem Timebase.movedTo_state (tb : Timebase) (x : Coarse) : (tb.movedTo x).state = tb.state := rfl
@[simp] theorem Timebase.movedTo_self (tb : Timebase) : tb.movedTo tb.coarse = tb := by simp [Timebase.movedTo]
@[simp] theorem Timebase.movedTo_ticked {tb : Timebase} {x : Coarse} (h : x ≠ tb.coarse) :
    (tb.movedTo x).ticked = true := by simp [Timebase.movedTo, h]
theorem State.atCount_self (s : State) : s.atCount s.tb.coarse = s := by simp [State.atCount, State.modTb]

/-! ## Loops over the objects -/

/-- A property that every round keeps holds after the loop over the eight descriptors or slots. -/
theorem State.forEight_keeps {P : State → Prop} {f : Fin 8 → State → State}
    (h : ∀ g u, P u → P (f g u)) {s : State} (hs : P s) : P (s.forEight f) := by
  have go : ∀ (l : List (Fin 8)) (u : State), P u → P (l.foldl (fun u g => f g u) u) := by
    intro l
    induction l with
    | nil => intro u hu; exact hu
    | cons g l ih => intro u hu; exact ih _ (h g u hu)
  exact go allEight s hs

/-- A property that every round keeps holds after the loop over the four channels. -/
theorem State.forChans_keeps {P : State → Prop} {f : Chan → State → State}
    (h : ∀ c u, P u → P (f c u)) {s : State} (hs : P s) : P (s.forChans f) := by
  have go : ∀ (l : List Chan) (u : State), P u → P (l.foldl (fun u c => f c u) u) := by
    intro l
    induction l with
    | nil => intro u hu; exact hu
    | cons c l ih => intro u hu; exact ih _ (h c u hu)
  exact go allChans s hs

/-! ## Postings (R161) -/

/-- What a posting can do: nothing under the mask, else one entry of the notice queue. -/
theorem State.post_cases (s : State) (key : NoticeKey) :
    (s.link.mask.admits key = false ∧ s.post key = s) ∨
    (s.link.mask.admits key = true ∧
      s.post key = { s with link := { s.link with noticeQueue := postInto key s.link.noticeQueue } }) := by
  cases h : s.link.mask.admits key
  · exact .inl ⟨rfl, by simp [State.post, State.modLink, h]⟩
  · exact .inr ⟨rfl, by simp [State.post, State.modLink, h]⟩

@[simp] theorem State.post_tb (s : State) (key : NoticeKey) : (s.post key).tb = s.tb := rfl
@[simp] theorem State.post_power (s : State) (key : NoticeKey) : (s.post key).power = s.power := rfl
@[simp] theorem State.post_lnkclk (s : State) (key : NoticeKey) : (s.post key).lnkclk = s.lnkclk := rfl
@[simp] theorem State.post_levels (s : State) (key : NoticeKey) : (s.post key).levels = s.levels := rfl
@[simp] theorem State.post_aux (s : State) (key : NoticeKey) : (s.post key).aux = s.aux := rfl
@[simp] theorem State.post_chans (s : State) (key : NoticeKey) : (s.post key).chans = s.chans := rfl
@[simp] theorem State.post_cal (s : State) (key : NoticeKey) : (s.post key).cal = s.cal := rfl
@[simp] theorem State.post_descs (s : State) (key : NoticeKey) : (s.post key).descs = s.descs := rfl
@[simp] theorem State.post_slots (s : State) (key : NoticeKey) : (s.post key).slots = s.slots := rfl
@[simp] theorem State.post_stream (s : State) (key : NoticeKey) : (s.post key).stream = s.stream := rfl
@[simp] theorem State.post_causes (s : State) (key : NoticeKey) : (s.post key).causes = s.causes := rfl
@[simp] theorem State.post_pending (s : State) (key : NoticeKey) : (s.post key).pending = s.pending := rfl

end Sys2Proof.Machine
end

