-- ==== Sys2Proof/Laws/Command.lean ====
section
/-! SUPPORT. What a command row does, said once: executed, it is its block's answer behind the arbiter; held up, it waits; too many, it is an overrun (R158, R159). -/

namespace Sys2Proof.Machine

theorem State.canExecute_of_executes {s : State} {p : List Byte} (h : s.executes p = true) :
    s.canExecute p = true := by
  simp only [State.executes, Bool.and_eq_true] at h
  simp only [State.canExecute, Config.replyQueueSize, Bool.and_eq_true]
  exact h.1

/-- The bookkeeping of the link does not bear on whether a command can be executed. -/
theorem State.canExecute_modLink (s : State) (p : List Byte) (f : Link → Link)
    (hr : (f s.link).restart = s.link.restart) (hq : (f s.link).replyQueue = s.link.replyQueue) :
    (s.modLink f).canExecute p = s.canExecute p := by
  have hb : (s.modLink f).gateBusy p = s.gateBusy p := rfl
  unfold State.canExecute
  rw [hb, State.modLink_link, hr, hq]
  rfl

/-- A command row whose command is executed: the block acts on the state without the command, and the reply joins
the queue under the next execution number (R159). -/
theorem runCommand_executes {s : State} {p : List Byte} (h : s.executes p = true) (code : Byte)
    (body : State → State × Answer) :
    runCommand p code body s =
      .next ((body (s.taken p)).1.reply code (body (s.taken p)).2).arbitrate := by
  have hc := State.canExecute_of_executes h
  simp only [State.executes, Bool.and_eq_true, Bool.or_eq_true, decide_eq_true_eq] at h
  obtain ⟨⟨⟨⟨⟨hp, hl⟩, _⟩, _⟩, _⟩, hq⟩ := h
  by_cases hh : s.link.commandQueue.head? = some p
  · simp [runCommand, State.bring, hh, hc, State.execute, State.taken, State.modLink]
  · obtain ⟨⟨hq, hx⟩, hb⟩ := hq.resolve_left hh
    have hq' : s.link.commandQueue = [] := by simpa using hq
    have hrec : s.receiving = true := by simp [State.receiving, hp, hl, hx]
    have hbring : s.bring p =
        s.modLink (fun l => { l with rxLine := .looking, rxGap := false, commandQueue := [p] }) := by
      simp [State.bring, hrec, hb, Link.enqueue, hq', Config.commandQueueSize, State.modLink]
    have hcan : (s.bring p).canExecute p = true := by
      rw [hbring, State.canExecute_modLink]
      · exact hc
      · rfl
      · rfl
    have htake : ((s.bring p).modLink fun l => { l with commandQueue := l.commandQueue.tail }) = s.taken p := by
      rw [hbring]
      simp [State.modLink, State.taken, hq']
    have hhead : (s.bring p).link.commandQueue.head? = some p := by rw [hbring]; rfl
    simp only [runCommand, State.execute, hhead, hcan, htake, true_and, if_true]

/-- A command at the head of the queue that cannot be executed waits there: only the arbiter can act (R159). -/
theorem runCommand_waits {s : State} {p : List Byte} (hh : s.link.commandQueue.head? = some p)
    (hc : s.canExecute p = false) (code : Byte) (body : State → State × Answer) :
    runCommand p code body s = .next s.arbitrate := by
  simp [runCommand, State.bring, hh, hc]

/-- A command with the number of argument bytes that R173 gives it is handed to its block. -/
theorem command_executes {s : State} {code : Byte} {args : List Byte} (h : s.executes (code :: args) = true)
    {len : Nat} (hl : args.length = len) (body : State → State × Answer) :
    command code len args body s =
      .next ((body (s.taken (code :: args))).1.reply code (body (s.taken (code :: args))).2).arbitrate := by
  rw [command, runCommand_executes h]
  simp [withLength, hl]

/-- A command with another number of argument bytes is refused with LENGTH (R159). -/
theorem command_badLength {s : State} {code : Byte} {args : List Byte} (h : s.executes (code :: args) = true)
    {len : Nat} (hl : args.length ≠ len) (body : State → State × Answer) :
    command code len args body s =
      .next ((s.taken (code :: args)).reply code (Answer.refuse .length)).arbitrate := by
  rw [command, runCommand_executes h]
  simp [withLength, hl]

/-! ## The state a block acts on -/

section
variable (s : State) (p : List Byte)

@[simp] theorem State.taken_power : (s.taken p).power = s.power := by unfold State.taken; split <;> rfl
@[simp] theorem State.taken_lnkclk : (s.taken p).lnkclk = s.lnkclk := by unfold State.taken; split <;> rfl
@[simp] theorem State.taken_levels : (s.taken p).levels = s.levels := by unfold State.taken; split <;> rfl
@[simp] theorem State.taken_aux : (s.taken p).aux = s.aux := by unfold State.taken; split <;> rfl
@[simp] theorem State.taken_tb : (s.taken p).tb = s.tb := by unfold State.taken; split <;> rfl
@[simp] theorem State.taken_chans : (s.taken p).chans = s.chans := by unfold State.taken; split <;> rfl
@[simp] theorem State.taken_cal : (s.taken p).cal = s.cal := by unfold State.taken; split <;> rfl
@[simp] theorem State.taken_descs : (s.taken p).descs = s.descs := by unfold State.taken; split <;> rfl
@[simp] theorem State.taken_slots : (s.taken p).slots = s.slots := by unfold State.taken; split <;> rfl
@[simp] theorem State.taken_stream : (s.taken p).stream = s.stream := by unfold State.taken; split <;> rfl
@[simp] theorem State.taken_causes : (s.taken p).causes = s.causes := by unfold State.taken; split <;> rfl
@[simp] theorem State.taken_pending : (s.taken p).pending = s.pending := by unfold State.taken; split <;> rfl
@[simp] theorem State.taken_mask : (s.taken p).link.mask = s.link.mask := by unfold State.taken; split <;> rfl
@[simp] theorem State.taken_noticeQueue : (s.taken p).link.noticeQueue = s.link.noticeQueue := by
  unfold State.taken; split <;> rfl
@[simp] theorem State.taken_chan (c : Chan) : (s.taken p).chan c = s.chan c := by simp [State.chan]
@[simp] theorem State.taken_desc (g : Desc) : (s.taken p).desc g = s.desc g := by simp [State.desc]
@[simp] theorem State.taken_slot (k : SlotId) : (s.taken p).slot k = s.slot k := by simp [State.slot]
@[simp] theorem State.taken_link_number : (s.taken p).link.number = s.link.number := by
  unfold State.taken; split <;> rfl
@[simp] theorem State.taken_link_replyQueue : (s.taken p).link.replyQueue = s.link.replyQueue := by
  unfold State.taken; split <;> rfl

end

end Sys2Proof.Machine
end

