-- ==== Sys2Proof/Laws/Engine.lean ====
section
/-! SUPPORT. What the engine and the result store can touch: descriptors, slots and the notice queue, where a queued notice stays; and what an operation on one descriptor leaves of the others. -/

namespace Sys2Proof.Machine

/-! ## The engine's reach -/

/-- From `s` to `t` only descriptors, slots and the notice queue have changed, and no queued notice is gone. -/
structure EngineOnly (s t : State) : Prop where
  power : t.power = s.power
  lnkclk : t.lnkclk = s.lnkclk
  levels : t.levels = s.levels
  aux : t.aux = s.aux
  tb : t.tb = s.tb
  chans : t.chans = s.chans
  cal : t.cal = s.cal
  stream : t.stream = s.stream
  causes : t.causes = s.causes
  pending : t.pending = s.pending
  link : t.link = { s.link with noticeQueue := t.link.noticeQueue }
  notices : ∀ k, (∃ e ∈ s.link.noticeQueue, e.key = k) → ∃ e ∈ t.link.noticeQueue, e.key = k

theorem EngineOnly.refl (s : State) : EngineOnly s s where
  power := rfl
  lnkclk := rfl
  levels := rfl
  aux := rfl
  tb := rfl
  chans := rfl
  cal := rfl
  stream := rfl
  causes := rfl
  pending := rfl
  link := rfl
  notices := fun _ h => h

theorem EngineOnly.trans {s t u : State} (h : EngineOnly s t) (k : EngineOnly t u) : EngineOnly s u where
  power := k.power.trans h.power
  lnkclk := k.lnkclk.trans h.lnkclk
  levels := k.levels.trans h.levels
  aux := k.aux.trans h.aux
  tb := k.tb.trans h.tb
  chans := k.chans.trans h.chans
  cal := k.cal.trans h.cal
  stream := k.stream.trans h.stream
  causes := k.causes.trans h.causes
  pending := k.pending.trans h.pending
  link := by rw [k.link, h.link]
  notices := fun x e => k.notices x (h.notices x e)

theorem EngineOnly.chan {s t : State} (h : EngineOnly s t) (c : Chan) : t.chan c = s.chan c := by
  simp [State.chan, h.chans]

theorem EngineOnly.chanState {s t : State} (h : EngineOnly s t) (c : Chan) : t.chanState c = s.chanState c := by
  have hc : t.calibrates c = s.calibrates c := by unfold State.calibrates; rw [h.cal]
  unfold State.chanState
  rw [hc, h.chan, h.aux]

theorem EngineOnly.mask {s t : State} (h : EngineOnly s t) : t.link.mask = s.link.mask := by rw [h.link]

theorem EngineOnly.eq {s t : State} (h : EngineOnly s t) :
    t = { s with descs := t.descs, slots := t.slots,
                 link := { s.link with noticeQueue := t.link.noticeQueue } } := by
  obtain ⟨h1, h2, h3, h4, h5, h6, h7, h8, h9, h10, h11, -⟩ := h
  cases t
  simp only at h1 h2 h3 h4 h5 h6 h7 h8 h9 h10 h11
  subst h1 h2 h3 h4 h5 h6 h7 h8 h9 h10
  rw [← h11]

/-! ## Postings keep queued notices -/

theorem postInto_keeps (key k : NoticeKey) :
    ∀ q : List Notice, (∃ e ∈ q, e.key = k) → ∃ e ∈ postInto key q, e.key = k
  | [], h => by obtain ⟨e, he, _⟩ := h; cases he
  | a :: q, h => by
    obtain ⟨e, he, hk⟩ := h
    unfold postInto
    split
    · rename_i ha
      rcases List.mem_cons.mp he with rfl | he
      · exact ⟨_, List.mem_cons_self, hk⟩
      · exact ⟨e, List.mem_cons_of_mem _ he, hk⟩
    · rcases List.mem_cons.mp he with rfl | he
      · exact ⟨e, List.mem_cons_self, hk⟩
      · obtain ⟨e', he', hk'⟩ := postInto_keeps key k q ⟨e, he, hk⟩
        exact ⟨e', List.mem_cons_of_mem _ he', hk'⟩

theorem postInto_has (key : NoticeKey) : ∀ q : List Notice, ∃ e ∈ postInto key q, e.key = key
  | [] => ⟨_, List.mem_cons_self, rfl⟩
  | a :: q => by
    unfold postInto
    split
    · rename_i h
      exact ⟨_, List.mem_cons_self, h⟩
    · obtain ⟨e, he, hk⟩ := postInto_has key q
      exact ⟨e, List.mem_cons_of_mem _ he, hk⟩

/-- A posting that the mask admits leaves a notice of its kind and object queued (R161). -/
theorem State.post_has {s : State} {key : NoticeKey} (h : s.link.mask.admits key = true) :
    ∃ e ∈ (s.post key).link.noticeQueue, e.key = key := by
  rcases s.post_cases key with ⟨h0, -⟩ | ⟨-, he⟩
  · rw [h] at h0; cases h0
  · rw [he]; exact postInto_has key _

@[simp] theorem State.post_mask (s : State) (key : NoticeKey) : (s.post key).link.mask = s.link.mask := by
  rcases s.post_cases key with ⟨-, he⟩ | ⟨-, he⟩ <;> rw [he]

@[simp] theorem State.post_tx (s : State) (key : NoticeKey) : (s.post key).link.tx = s.link.tx := by
  rcases s.post_cases key with ⟨-, he⟩ | ⟨-, he⟩ <;> rw [he]

@[simp] theorem State.post_desc (s : State) (key : NoticeKey) (g : Desc) : (s.post key).desc g = s.desc g := rfl

@[simp] theorem State.post_slot (s : State) (key : NoticeKey) (k : SlotId) : (s.post key).slot k = s.slot k := rfl

@[simp] theorem State.post_chan (s : State) (key : NoticeKey) (c : Chan) : (s.post key).chan c = s.chan c := rfl

/-! ## One lemma for each operation -/

theorem EngineOnly.post (s : State) (key : NoticeKey) : EngineOnly s (s.post key) := by
  rcases s.post_cases key with ⟨-, he⟩ | ⟨-, he⟩
  · rw [he]; exact .refl s
  · rw [he]
    exact ⟨rfl, rfl, rfl, rfl, rfl, rfl, rfl, rfl, rfl, rfl, rfl, fun k h => postInto_keeps key k _ h⟩

theorem EngineOnly.modDesc (s : State) (g : Desc) (f : Descriptor → Descriptor) :
    EngineOnly s (s.modDesc g f) :=
  ⟨rfl, rfl, rfl, rfl, rfl, rfl, rfl, rfl, rfl, rfl, rfl, fun _ h => h⟩

theorem EngineOnly.modSlot (s : State) (k : SlotId) (f : Slot → Slot) : EngineOnly s (s.modSlot k f) :=
  ⟨rfl, rfl, rfl, rfl, rfl, rfl, rfl, rfl, rfl, rfl, rfl, fun _ h => h⟩

theorem EngineOnly.postGate (s : State) (g : Desc) (r : GateReason) : EngineOnly s (s.postGate g r) :=
  (EngineOnly.modDesc s g _).trans (.post _ _)

theorem EngineOnly.forEight {f : Fin 8 → State → State} (h : ∀ g u, EngineOnly u (f g u)) (s : State) :
    EngineOnly s (s.forEight f) :=
  State.forEight_keeps (P := EngineOnly s) (fun g u hu => hu.trans (h g u)) (.refl s)

theorem EngineOnly.foldl {α : Type} {f : State → α → State} (h : ∀ u a, EngineOnly u (f u a)) :
    ∀ (l : List α) (s : State), EngineOnly s (l.foldl f s)
  | [], s => .refl s
  | a :: l, s => (h s a).trans (EngineOnly.foldl h l _)

theorem EngineOnly.present (s : State) (k : SlotId) (r : Record) : EngineOnly s (s.present k r) :=
  (EngineOnly.modSlot s k _).trans (.post _ _)

theorem EngineOnly.publish (s : State) (k : SlotId) (r : Record) : EngineOnly s (s.publish k r) := by
  unfold State.publish
  split
  · exact .modSlot s k _
  · exact .present s k r

theorem EngineOnly.release (s : State) (k : SlotId) : EngineOnly s (s.release k) := by
  unfold State.release
  split
  · split
    · exact (EngineOnly.modSlot s k _).trans (.present _ _ _)
    · exact .modSlot s k _
  · exact .refl s

theorem EngineOnly.openGate (s : State) (g : Desc) (st : Option Stamp) (m : Sample) :
    EngineOnly s (s.openGate g st m) := .modDesc s g _

theorem EngineOnly.enterArmed (s : State) (g : Desc) : EngineOnly s (s.enterArmed g) := .modDesc s g _

theorem EngineOnly.enterOff (s : State) (g : Desc) : EngineOnly s (s.enterOff g) := .modDesc s g _

theorem EngineOnly.arm (s : State) (g : Desc) (m : Sample) : EngineOnly s (s.arm g m) := by
  unfold State.arm
  split
  · exact .openGate s g _ _
  · exact .enterArmed s g

theorem EngineOnly.judge (s : State) (g : Desc) : EngineOnly s (s.judge g) := by
  unfold State.judge
  split
  · exact .arm s g _
  · exact .refl s

theorem EngineOnly.judgeAll (s : State) : EngineOnly s s.judgeAll := .forEight (fun g u => .judge u g) s

theorem EngineOnly.enterWaitArm (s : State) (g : Desc) : EngineOnly s (s.enterWaitArm g) :=
  (EngineOnly.modDesc s g _).trans (.judge _ g)

theorem EngineOnly.armEvent (s : State) (g : Desc) (m : Sample) : EngineOnly s (s.armEvent g m) := by
  unfold State.armEvent
  split
  · exact .arm s g m
  · exact .refl s

theorem EngineOnly.chainFrom (s : State) (g : Desc) : EngineOnly s (s.chainFrom g) := by
  refine .forEight (fun h u => ?_) s
  split
  · exact .armEvent u h _
  · exact .refl u

theorem EngineOnly.goOn (s : State) (g : Desc) (e : CloseEvent) : EngineOnly s (s.goOn g e) := by
  unfold State.goOn
  repeat' split
  all_goals first | exact .openGate s g _ _ | exact .enterArmed s g

theorem EngineOnly.afterGate (s : State) (g : Desc) (old : Descriptor) (e : CloseEvent) :
    EngineOnly s (s.afterGate g old e) := by
  unfold State.afterGate
  dsimp only
  refine (EngineOnly.modDesc s g Descriptor.applyPending).trans ?_
  split
  · split
    · exact .goOn _ g e
    · split
      · exact .enterOff _ g
      · exact .enterWaitArm _ g
  · exact .enterOff _ g

theorem EngineOnly.conclude (s : State) (g : Desc) (e : CloseEvent) : EngineOnly s (s.conclude g e) := by
  unfold State.conclude
  dsimp only
  split
  · exact .refl s
  · exact (((EngineOnly.modDesc s g _).trans (.publish _ _ _)).trans (.chainFrom _ g)).trans (.afterGate _ g _ e)

theorem EngineOnly.closeGate (s : State) (g : Desc) (e : CloseEvent) : EngineOnly s (s.closeGate g e) := by
  unfold State.closeGate
  split
  · exact .modDesc s g _
  · exact .conclude s g e

theorem EngineOnly.takeStamp (s : State) (g : Desc) (st : Stamp) (m : Sample) :
    EngineOnly s (s.takeStamp g st m) := by
  unfold State.takeStamp
  dsimp only
  repeat' split
  all_goals first
    | exact .refl s | exact .openGate s g _ _ | exact .closeGate s g _ | exact .modDesc s g _

theorem EngineOnly.judgeEvent (s : State) (g : Desc) (ev : MenEvent) (m : Sample) :
    EngineOnly s (s.judgeEvent g ev m) := by
  unfold State.judgeEvent
  dsimp only
  repeat' split
  all_goals first
    | exact .refl s | exact .takeStamp s g _ _ | exact .armEvent s g _ | exact .openGate s g _ _
    | exact .closeGate s g _

theorem EngineOnly.offer (s : State) (g : Desc) (ev : MenEvent) (m : Sample) :
    EngineOnly s (s.offer g ev m) := by
  unfold State.offer
  split
  · split
    · exact .modDesc s g _
    · exact .judgeEvent s g ev m
  · exact .refl s

theorem EngineOnly.formation (s : State) (g : Desc) : EngineOnly s (s.formation g) := by
  unfold State.formation
  split
  · exact .refl s
  · exact ((EngineOnly.modDesc s g _).trans (.conclude _ g _)).trans (EngineOnly.foldl (fun u (p : MenEvent × Sample) => .offer u g p.1 p.2) _ _)

theorem EngineOnly.gatherFlags (s : State) : EngineOnly s s.gatherFlags := by
  refine .forEight (fun g u => ?_) s
  split
  · exact .modDesc u g _
  · exact .refl u

theorem EngineOnly.formAtHalt (g : Desc) : ∀ (n : Nat) (s : State), EngineOnly s (s.formAtHalt g n)
  | 0, s => .refl s
  | n + 1, s => by
    unfold State.formAtHalt
    split
    · exact (EngineOnly.formation s g).trans (EngineOnly.formAtHalt g n _)
    · exact .refl s

theorem EngineOnly.returnToWait (s : State) (g : Desc) : EngineOnly s (s.returnToWait g) := by
  unfold State.returnToWait
  split
  · exact (EngineOnly.modDesc s g _).trans (.postGate _ g _)
  · exact .refl s

theorem EngineOnly.haltDescs (s : State) : EngineOnly s s.haltDescs :=
  (EngineOnly.forEight (fun g u => EngineOnly.formAtHalt g _ u) s).trans
    (.forEight (fun g u => .returnToWait u g) _)

/-! ## Operations on one descriptor -/

/-- From `s` to `t` no descriptor but `g` has changed, and the rest only by the engine. -/
def DescOnly (g : Desc) (s t : State) : Prop := ∀ h, h ≠ g → t.desc h = s.desc h

theorem DescOnly.modDesc (s : State) (g : Desc) (f : Descriptor → Descriptor) : DescOnly g s (s.modDesc g f) :=
  fun h hn => by simp [State.desc_modDesc, hn]

theorem DescOnly.trans {g : Desc} {s t u : State} (h : DescOnly g s t) (k : DescOnly g t u) : DescOnly g s u :=
  fun x hx => (k x hx).trans (h x hx)

theorem DescOnly.arm (s : State) (g : Desc) (m : Sample) : DescOnly g s (s.arm g m) := by
  unfold State.arm
  split
  · exact .modDesc s g _
  · exact .modDesc s g _

theorem DescOnly.judge (s : State) (g : Desc) : DescOnly g s (s.judge g) := by
  unfold State.judge
  split
  · exact .arm s g _
  · exact fun _ _ => rfl

theorem DescOnly.armEvent (s : State) (g : Desc) (m : Sample) : DescOnly g s (s.armEvent g m) := by
  unfold State.armEvent
  split
  · exact .arm s g m
  · exact fun _ _ => rfl

theorem DescOnly.returnToWait (s : State) (g : Desc) : DescOnly g s (s.returnToWait g) := by
  unfold State.returnToWait
  split
  · exact fun h hn => by simp [State.postGate, State.desc_modDesc, hn]
  · exact fun _ _ => rfl

theorem mem_allEight (g : Fin 8) : g ∈ allEight := by revert g; decide

/-- What a loop over the descriptors makes of descriptor `g`, when each round changes its own descriptor alone and by
nothing but that descriptor and what `P` keeps. -/
theorem State.forEight_desc {f : Desc → State → State} {s : State} {F : Desc → Descriptor → Descriptor}
    {P : State → Prop} (hs : P s) (hP : ∀ g u, P u → P (f g u)) (hd : ∀ g u, DescOnly g u (f g u))
    (hf : ∀ g u, P u → (f g u).desc g = F g (u.desc g)) (g : Desc) :
    (s.forEight f).desc g = F g (s.desc g) := by
  have go : ∀ (l : List Desc) (u : State), P u → l.Nodup →
      (l.foldl (fun u g => f g u) u).desc g = if g ∈ l then F g (u.desc g) else u.desc g := by
    intro l
    induction l with
    | nil => intro u _ _; simp
    | cons h l ih =>
      intro u hu hn
      rw [List.foldl_cons, ih _ (hP h u hu) (List.nodup_cons.mp hn).2]
      by_cases e : g = h
      · subst e
        rw [if_neg (List.nodup_cons.mp hn).1, if_pos List.mem_cons_self, hf g u hu]
      · rw [hd h u g e]
        by_cases hm : g ∈ l
        · rw [if_pos hm, if_pos (List.mem_cons_of_mem _ hm)]
        · rw [if_neg hm, if_neg (by simp [e, hm])]
  have hmem : g ∈ allEight := mem_allEight g
  have := go allEight s hs (by decide)
  rw [if_pos hmem] at this
  exact this

end Sys2Proof.Machine
end

