-- ==== Sys2Proof/Laws/Inputs.lean ====
section
/-! SUPPORT. What an edge at one channel can touch, and what it makes of the channel itself (R30 to R33, R42 to R46, R51). -/

namespace Sys2Proof.Machine

/-- From `s` to `t` only channel `c`, the descriptors, the slots, the stream unit and the notice queue have changed. -/
structure EdgeOnly (c : Chan) (s t : State) : Prop where
  power : t.power = s.power
  lnkclk : t.lnkclk = s.lnkclk
  levels : t.levels = s.levels
  aux : t.aux = s.aux
  tb : t.tb = s.tb
  cal : t.cal = s.cal
  causes : t.causes = s.causes
  pending : t.pending = s.pending
  link : t.link = { s.link with noticeQueue := t.link.noticeQueue }
  others : ∀ d, d ≠ c → t.chan d = s.chan d

theorem EdgeOnly.refl (c : Chan) (s : State) : EdgeOnly c s s :=
  ⟨rfl, rfl, rfl, rfl, rfl, rfl, rfl, rfl, rfl, fun _ _ => rfl⟩

theorem EdgeOnly.trans {c : Chan} {s t u : State} (h : EdgeOnly c s t) (k : EdgeOnly c t u) : EdgeOnly c s u where
  power := k.power.trans h.power
  lnkclk := k.lnkclk.trans h.lnkclk
  levels := k.levels.trans h.levels
  aux := k.aux.trans h.aux
  tb := k.tb.trans h.tb
  cal := k.cal.trans h.cal
  causes := k.causes.trans h.causes
  pending := k.pending.trans h.pending
  link := by rw [k.link, h.link]
  others := fun d hd => (k.others d hd).trans (h.others d hd)

theorem EdgeOnly.ofEngine {c : Chan} {s t : State} (h : EngineOnly s t) : EdgeOnly c s t :=
  ⟨h.power, h.lnkclk, h.levels, h.aux, h.tb, h.cal, h.causes, h.pending, h.link, fun d _ => h.chan d⟩

theorem EdgeOnly.modChan (c : Chan) (s : State) (f : Channel → Channel) : EdgeOnly c s (s.modChan c f) :=
  ⟨rfl, rfl, rfl, rfl, rfl, rfl, rfl, rfl, rfl, fun d hd => by simp [State.chan_modChan, hd]⟩

theorem EdgeOnly.modStream (c : Chan) (s : State) (f : StreamUnit → StreamUnit) : EdgeOnly c s (s.modStream f) :=
  ⟨rfl, rfl, rfl, rfl, rfl, rfl, rfl, rfl, rfl, fun _ _ => rfl⟩

/-! ## Counting (R30, R32, R34) -/

theorem EngineOnly.deliver (s : State) (ev : MenEvent) (m : Sample) : EngineOnly s (s.deliver ev m) :=
  .forEight (fun g u => .offer u g ev m) s

theorem EngineOnly.taking (s : State) (stamps : Chan → Option Stamp) (tick : Coarse) (p : Chan × Desc) :
    EngineOnly s (s.taking stamps tick p) := by
  unfold State.taking
  split
  · exact .offer s p.2 _ _
  · exact .refl s

theorem EdgeOnly.countEdge (s : State) (c : Chan) (tick : Coarse) : EdgeOnly c s (s.countEdge c tick) :=
  (EdgeOnly.modChan c s _).trans (.ofEngine (.forEight (fun g u => .modDesc u g _) _))

/-- The channel after a counted edge: its count and its holdoff (R30, R32). -/
theorem State.countEdge_chan (s : State) (c : Chan) (tick : Coarse) :
    (s.countEdge c tick).chan c =
      { s.chan c with
        n := (s.chan c).n + 1
        holdoffEnd := if (s.chan c).set.holdoff = 0 then none
          else some (tick + (s.chan c).set.holdoff.zeroExtend 54) } := by
  have h : ∀ u : State, EngineOnly u (u.forEight (fun g v => v.modDesc g (fun d => d.note c tick))) :=
    fun u => .forEight (fun g v => .modDesc v g _) u
  rw [State.countEdge, (h _).chan, State.chan_modChan_self]

/-! ## Stamping (R42 to R46) -/

theorem EdgeOnly.noteStamp (s : State) (st : Stamp) (b : Bin) : EdgeOnly st.chan s (s.noteStamp st b) := by
  unfold State.noteStamp
  dsimp only
  have h : EdgeOnly st.chan s (if (s.chan st.chan).advises b = true then
      (s.modChan st.chan fun ch => ch.stamped st.coarse b).post (.advise st.chan)
      else s.modChan st.chan fun ch => ch.stamped st.coarse b) := by
    split
    · exact (EdgeOnly.modChan _ s _).trans (.ofEngine (.post _ _))
    · exact .modChan _ s _
  split
  · exact h.trans (.modStream _ _ _)
  · exact h

/-- The channel after a stamp: its interpolator has moved (R42, R44, R46, R71). -/
theorem State.noteStamp_chan (s : State) (st : Stamp) (b : Bin) :
    (s.noteStamp st b).chan st.chan = (s.chan st.chan).stamped st.coarse b := by
  have h : (if (s.chan st.chan).advises b = true then
      (s.modChan st.chan fun ch => ch.stamped st.coarse b).post (.advise st.chan)
      else s.modChan st.chan fun ch => ch.stamped st.coarse b).chan st.chan = (s.chan st.chan).stamped st.coarse b := by
    split <;> simp
  unfold State.noteStamp
  dsimp only
  split
  · exact h
  · exact h

/-- A stamp of an edge is of the edge's channel, at the edge's closing tick. -/
theorem State.stampTaken_some {s : State} {c : Chan} {input : PhysIn} {rising : Bool} {tick : Coarse} {b : Bin}
    {st : Stamp} (h : s.stampTaken c input rising tick b = some st) :
    st = (s.countEdge c tick).stampOf c tick b ∧ st.chan = c ∧ st.coarse = tick := by
  unfold State.stampTaken at h
  dsimp only at h
  split at h
  · cases h; exact ⟨rfl, rfl, rfl⟩
  · cases h

/-! ## An edge at a channel (R30, R33) -/

theorem EdgeOnly.channelEdge (s : State) (c : Chan) (input : PhysIn) (rising : Bool) (tick : Coarse) (b : Bin) :
    EdgeOnly c s (s.channelEdge c input rising tick b) := by
  unfold State.channelEdge
  split
  · split
    next st h =>
      have hc := (State.stampTaken_some h).2.1
      exact (EdgeOnly.countEdge s c tick).trans (hc ▸ .noteStamp _ st b)
    next => exact .countEdge s c tick
  · exact .refl c s

/-- The channel after an edge of an input: untouched, counted, or counted and stamped. -/
theorem State.channelEdge_chan (s : State) (c : Chan) (input : PhysIn) (rising : Bool) (tick : Coarse) (b : Bin) :
    (s.channelEdge c input rising tick b).chan c =
      if s.qualifies c input rising tick then
        if (s.stampTaken c input rising tick b).isSome then ((s.countEdge c tick).chan c).stamped tick b
        else (s.countEdge c tick).chan c
      else s.chan c := by
  unfold State.channelEdge
  split
  · split
    next st h =>
      obtain ⟨-, rfl, rfl⟩ := State.stampTaken_some h
      simp [h, State.noteStamp_chan]
    next h => simp [h]
  · rfl

/-- Whether an edge qualifies for a channel is a matter of that channel, AUX, the levels and the calibration alone. -/
theorem EdgeOnly.qualifies {c d : Chan} {s t : State} (h : EdgeOnly c s t) (hd : d ≠ c) (input : PhysIn)
    (rising : Bool) (tick : Coarse) : t.qualifies d input rising tick = s.qualifies d input rising tick := by
  have hc : t.calibrates d = s.calibrates d := by unfold State.calibrates; rw [h.cal]
  unfold State.qualifies State.inhibited State.auxActive State.chanState
  rw [hc, h.others d hd, h.aux, h.levels]

end Sys2Proof.Machine
end

