-- ==== Sys2Proof/Laws/Link.lean ====
section
/-! SUPPORT. What the arbiter's pick, the reply and the command queue can change of the part (R145, R158, R159, R164). -/

namespace Sys2Proof.Machine

/-! ## The arbiter (R164) -/

/-- The arbiter does nothing, sends the head reply, the oldest notice or a stream frame. -/
theorem State.arbitrate_cases (s : State) :
    s.arbitrate = s
    ∨ (∃ r rest, s.link.replyQueue = r :: rest ∧ s.arbitrate = s.sendReply r rest)
    ∨ (∃ e rest, s.link.replyQueue = [] ∧ s.link.noticeQueue = e :: rest ∧ s.arbitrate = s.sendNotice e rest)
    ∨ (s.link.replyQueue = [] ∧ s.link.noticeQueue = [] ∧ s.stream.fifo ≠ [] ∧ s.arbitrate = s.sendStream) := by
  unfold State.arbitrate State.pick
  split
  · split
    · rename_i h
      exact .inr (.inl ⟨_, _, h, rfl⟩)
    · rename_i h1 h2
      exact .inr (.inr (.inl ⟨_, _, h1, h2, rfl⟩))
    · rename_i h1 h2 h3
      exact .inr (.inr (.inr ⟨h1, h2, by simp [h3], rfl⟩))
    · exact .inl rfl
  · exact .inl rfl

/-- The pick touches the stream unit and the link alone. -/
theorem State.arbitrate_eq (s : State) :
    s.arbitrate = { s with stream := s.arbitrate.stream, link := s.arbitrate.link } := by
  rcases s.arbitrate_cases with h | ⟨r, rest, -, h⟩ | ⟨e, rest, -, -, h⟩ | ⟨-, -, -, h⟩ <;> rw [h] <;> rfl

section
variable (s : State)

@[simp] theorem State.arbitrate_power : s.arbitrate.power = s.power := by rw [s.arbitrate_eq]
@[simp] theorem State.arbitrate_lnkclk : s.arbitrate.lnkclk = s.lnkclk := by rw [s.arbitrate_eq]
@[simp] theorem State.arbitrate_levels : s.arbitrate.levels = s.levels := by rw [s.arbitrate_eq]
@[simp] theorem State.arbitrate_aux : s.arbitrate.aux = s.aux := by rw [s.arbitrate_eq]
@[simp] theorem State.arbitrate_tb : s.arbitrate.tb = s.tb := by rw [s.arbitrate_eq]
@[simp] theorem State.arbitrate_chans : s.arbitrate.chans = s.chans := by rw [s.arbitrate_eq]
@[simp] theorem State.arbitrate_cal : s.arbitrate.cal = s.cal := by rw [s.arbitrate_eq]
@[simp] theorem State.arbitrate_descs : s.arbitrate.descs = s.descs := by rw [s.arbitrate_eq]
@[simp] theorem State.arbitrate_slots : s.arbitrate.slots = s.slots := by rw [s.arbitrate_eq]
@[simp] theorem State.arbitrate_causes : s.arbitrate.causes = s.causes := by rw [s.arbitrate_eq]
@[simp] theorem State.arbitrate_pending : s.arbitrate.pending = s.pending := by rw [s.arbitrate_eq]
@[simp] theorem State.arbitrate_chan (c : Chan) : s.arbitrate.chan c = s.chan c := by simp [State.chan]
@[simp] theorem State.arbitrate_desc (g : Desc) : s.arbitrate.desc g = s.desc g := by simp [State.desc]
@[simp] theorem State.arbitrate_slot (k : SlotId) : s.arbitrate.slot k = s.slot k := by simp [State.slot]

/-- The pick leaves the receiver, the command queue, the mask, the counters and a pending restart. -/
theorem State.arbitrate_link :
    s.arbitrate.link = { s.link with replyQueue := s.arbitrate.link.replyQueue
                                     noticeQueue := s.arbitrate.link.noticeQueue
                                     tx := s.arbitrate.link.tx } := by
  rcases s.arbitrate_cases with h | ⟨r, rest, -, h⟩ | ⟨e, rest, -, -, h⟩ | ⟨-, -, -, h⟩ <;> rw [h] <;> rfl

end

/-- A busy transmitter takes nothing. -/
theorem State.arbitrate_busy {s : State} (h : s.link.tx ≠ none) : s.arbitrate = s := by
  have : s.link.tx.isNone = false := by cases hx : s.link.tx <;> simp_all
  simp [State.arbitrate, State.txFree, this]

/-! ## The reply (R159) -/

section
variable (s : State) (code : Byte) (a : Answer)

@[simp] theorem State.reply_power : (s.reply code a).power = s.power := rfl
@[simp] theorem State.reply_tb : (s.reply code a).tb = s.tb := rfl
@[simp] theorem State.reply_cal : (s.reply code a).cal = s.cal := rfl
@[simp] theorem State.reply_stream : (s.reply code a).stream = s.stream := rfl
@[simp] theorem State.reply_chan (c : Chan) : (s.reply code a).chan c = s.chan c := rfl
@[simp] theorem State.reply_desc (g : Desc) : (s.reply code a).desc g = s.desc g := rfl
@[simp] theorem State.reply_slot (k : SlotId) : (s.reply code a).slot k = s.slot k := rfl
@[simp] theorem State.reply_chanState (c : Chan) : (s.reply code a).chanState c = s.chanState c := rfl

end

/-! ## The command queue (R158) -/

/-- A command joins at the tail, or is an overrun; nothing else of the link changes. -/
theorem Link.enqueue_cases (l : Link) (p : List Byte) :
    (l.commandQueue.length < 4 ∧ l.enqueue p = { l with commandQueue := l.commandQueue ++ [p] })
    ∨ (4 ≤ l.commandQueue.length ∧ l.enqueue p = { l with overruns := satInc 65535 l.overruns }) := by
  unfold Link.enqueue
  by_cases h : l.commandQueue.length < Config.commandQueueSize
  · exact .inl ⟨h, by simp [h]⟩
  · exact .inr ⟨Nat.le_of_not_lt h, by simp [h, Config.sat16]⟩

end Sys2Proof.Machine
end

