-- ==== Sys2Proof/Laws/Expiries.lean ====
section
/-! SUPPORT. How the coarse counter moves on: what is due expires before it leaves a count, and with nothing on the way it simply comes to its goal (R6, R7). -/

namespace Sys2Proof.Machine

theorem Wait.mem_all (w : Wait) : w ∈ Wait.all := by
  cases w <;> simp [Wait.all, mem_allEight] <;> rename_i c <;> revert c <;> decide

/-! ## An expiry leaves the counter -/

theorem State.closeGate_tb (s : State) (g : Desc) (e : CloseEvent) : (s.closeGate g e).tb = s.tb :=
  (EngineOnly.closeGate s g e).tb

theorem State.endCal_tb (s : State) (outcome : CalOutcome) : (s.endCal outcome).tb = s.tb := by
  unfold State.endCal
  split
  · rfl
  · rename_i r h
    rw [(EngineOnly.judgeAll _).tb, State.post_tb]
    unfold State.dropCal
    rw [h]
    rfl

theorem State.expire_tb (s : State) (w : Wait) (x : Coarse) : (s.expire w x).tb = s.tb := by
  cases w with
  | holdoff c => rfl
  | deadTime c => rfl
  | deadline => exact s.endCal_tb .osc
  | nominalEnd g =>
    show (s.nominalEnd g x).tb = s.tb
    unfold State.nominalEnd
    split
    · rfl
    · split
      · exact s.closeGate_tb g _
      · rfl
  | timeout g =>
    show (s.timeout g x).tb = s.tb
    unfold State.timeout
    split
    · show (s.armedTimeout g).tb = s.tb
      unfold State.armedTimeout
      rw [(EngineOnly.judge _ g).tb, (EngineOnly.postGate _ g _).tb]
      rfl
    · exact s.closeGate_tb g _
    · exact s.closeGate_tb g _
    · rfl
  | record g => exact (EngineOnly.formation s g).tb

/-- A property that every expiry and the arbiter's pick keep holds after a round over the waits. -/
theorem State.settleOnce_keeps {P : State → Prop} (h : ∀ u w y, P u → P (u.expire w y).arbitrate) {s : State}
    (hs : P s) : P s.settleOnce := by
  have go : ∀ (l : List Wait) (u : State), P u → P (l.foldl (fun u w =>
      match u.instantOf w with
      | some x => if atOrAfter u.tb.coarse x then (u.expire w x).arbitrate else u
      | none => u) u) := by
    intro l
    induction l with
    | nil => intro u hu; exact hu
    | cons w l ih =>
      intro u hu
      refine ih _ ?_
      dsimp only
      split
      · split
        · exact h u w _ hu
        · exact hu
      · exact hu
  exact go Wait.all s hs

/-- A property that every expiry and the arbiter's pick keep holds after all that is due has expired. -/
theorem State.settle_keeps {P : State → Prop} (h : ∀ u w y, P u → P (u.expire w y).arbitrate) {s : State} (hs : P s) :
    P s.settle := by
  have go : ∀ (fuel : Nat) (u : State), P u → P (State.settleIn fuel u) := by
    intro fuel
    induction fuel with
    | zero => intro u hu; exact hu
    | succ n ih =>
      intro u hu
      unfold State.settleIn
      split
      · exact ih _ (State.settleOnce_keeps h hu)
      · exact hu
  exact go _ s hs

theorem State.settle_tb (s : State) : s.settle.tb = s.tb :=
  State.settle_keeps (P := fun u => u.tb = s.tb)
    (fun u w y hu => by rw [State.arbitrate_tb, State.expire_tb, hu]) rfl

/-- A property that every expiry, the arbiter's pick and the counter's moving keep holds when the counter has moved on. -/
theorem State.advance_keeps {P : State → Prop} (h : ∀ u w y, P u → P (u.expire w y).arbitrate)
    (hc : ∀ u x, P u → P (u.atCount x)) : ∀ (fuel : Nat) (s : State) (x : Coarse), P s → P (State.advance fuel s x)
  | 0, s, x, hs => hc s x hs
  | fuel + 1, s, x, hs => by
    have hu : P s.settle := State.settle_keeps h hs
    unfold State.advance
    dsimp only
    split
    · exact State.advance_keeps h hc fuel _ x (hc _ _ hu)
    · exact hc _ _ hu

theorem State.advanceTo_keeps {P : State → Prop} (h : ∀ u w y, P u → P (u.expire w y).arbitrate)
    (hc : ∀ u x, P u → P (u.atCount x)) {s : State} (x : Coarse) (hs : P s) : P (s.advanceTo x) :=
  State.advance_keeps h hc _ s x hs

/-! ## With nothing on the way -/

/-- `passesNothing` as a check of the 37 waits. -/
theorem State.passesNothing_of_all {s : State} {x : Coarse}
    (h : Wait.all.all (fun w => (s.instantOf w).all (fun y =>
      decide ((x - s.tb.coarse).toNat ≤ (y - s.tb.coarse).toNat ∧ (y - s.tb.coarse).toNat ≤ 2 ^ 53))) = true) :
    s.passesNothing x := by
  intro w hw y hy
  have hi := List.all_eq_true.mp h w hw
  rw [hy] at hi
  exact of_decide_eq_true hi

/-- `nothingDue` as a check of the 37 waits. -/
theorem State.nothingDue_of_all {s : State}
    (h : Wait.all.all (fun w => (s.instantOf w).all (fun y =>
      decide (¬(s.tb.coarse - y).toNat < 2 ^ 53))) = true) : s.nothingDue := by
  intro w hw y hy
  have hi := List.all_eq_true.mp h w hw
  rw [hy] at hi
  exact of_decide_eq_true hi

theorem State.nothingDue.isDue {s : State} (h : s.nothingDue) : Wait.all.any s.isDue = false := by
  rw [List.any_eq_false]
  intro w hw
  unfold State.isDue
  split
  · rename_i x hx
    simpa [atOrAfter] using h w hw x hx
  · exact Bool.false_ne_true

theorem State.nothingDue.settle {s : State} (h : s.nothingDue) : s.settle = s := by
  unfold State.settle
  generalize Wait.all.length = fuel
  cases fuel with
  | zero => rfl
  | succ n => unfold State.settleIn; rw [h.isDue]; rfl

/-- Where the counter has still to move and comes to no instant on the way, nothing is due. -/
theorem State.passesNothing.nothingDue {s : State} {x : Coarse} (h : s.passesNothing x) (hx : s.tb.coarse ≠ x) :
    s.nothingDue := by
  intro w hw y hy
  obtain ⟨h1, h2⟩ := h w hw y hy
  have h0 : (x - s.tb.coarse).toNat ≠ 0 := by
    intro e
    apply hx
    bv_omega
  bv_omega

theorem State.passesNothing.cyclesAhead {s : State} {x : Coarse} (h : s.passesNothing x) :
    s.cyclesAhead (x - s.tb.coarse).toNat = (x - s.tb.coarse).toNat := by
  have go : ∀ l : List Wait, (∀ w ∈ l, w ∈ Wait.all) → l.foldl (fun d w =>
      match s.instantOf w with
      | some y => if atOrAfter s.tb.coarse y then d else min d (y - s.tb.coarse).toNat
      | none => d) (x - s.tb.coarse).toNat = (x - s.tb.coarse).toNat := by
    intro l
    induction l with
    | nil => intro _; rfl
    | cons w l ih =>
      intro hl
      rw [List.foldl_cons]
      have : (match s.instantOf w with
        | some y => if atOrAfter s.tb.coarse y then (x - s.tb.coarse).toNat
            else min (x - s.tb.coarse).toNat (y - s.tb.coarse).toNat
        | none => (x - s.tb.coarse).toNat) = (x - s.tb.coarse).toNat := by
        split
        · rename_i y hy
          split
          · rfl
          · exact Nat.min_eq_left (h w (hl w List.mem_cons_self) y hy).1
        · rfl
      rw [this]
      exact ih fun v hv => hl v (List.mem_cons_of_mem _ hv)
  exact go Wait.all fun _ h => h

theorem State.advanceTo_self (s : State) : s.advanceTo s.tb.coarse = s := by
  simp [State.advanceTo, State.advance, State.atCount_self]

/-- With no expiry on the way the counter simply comes to its goal (R7). -/
theorem State.comesTo.advanceTo {s : State} {x : Coarse} (h : s.comesTo x) : s.advanceTo x = s.atCount x := by
  rcases h with rfl | h
  · rw [State.advanceTo_self, State.atCount_self]
  · by_cases hx : s.tb.coarse = x
    · subst hx
      rw [State.advanceTo_self, State.atCount_self]
    · unfold State.advanceTo
      cases hn : (x - s.tb.coarse).toNat with
      | zero => rfl
      | succ n =>
        unfold State.advance
        dsimp only
        rw [(h.nothingDue hx).settle, h.cyclesAhead, if_neg (Nat.lt_irrefl _)]

/-- The row of a wait's expiry, where the counter has come to the instant or comes to it with nothing on the way: the
wait expires at that count (R7). -/
theorem State.expiry_reached {s : State} {w : Wait} {x : Coarse} (hw : s.instantOf w = some x)
    (hc : s.tb.counting = true) (h : s.reaches x) :
    s.expiry w =
      (if (s.tb.coarse - x).toNat < 2 ^ 53 then s else s.atCount x).expire w x := by
  have hi : (s.atCount x).instantOf w = some x := by rw [← hw]; cases w <;> rfl
  unfold State.expiry
  rw [hw]
  dsimp only
  rw [if_pos hc]
  by_cases hx : (s.tb.coarse - x).toNat < 2 ^ 53
  · have hd : atOrAfter s.tb.coarse x = true := decide_eq_true hx
    rw [if_pos hd, if_pos hx]
    unfold State.expireIfDue
    rw [hw]
    dsimp only
    rw [if_pos hd]
  · have hd : ¬atOrAfter s.tb.coarse x = true := fun h => hx (of_decide_eq_true h)
    have hx' : atOrAfter x x = true := by simp [atOrAfter]
    rw [if_neg hd, if_neg hx, State.comesTo.advanceTo (.inr (h.resolve_left hx))]
    unfold State.expireIfDue
    rw [hi]
    dsimp only
    rw [State.atCount_tb, Timebase.movedTo_coarse, if_pos hx']

end Sys2Proof.Machine
end

