-- ==== Sys2Proof/Laws/Operands.lean ====
section
/-! SUPPORT. The forms of R172 read back: what is written as bytes is what the bytes spell. -/

namespace Sys2Proof.Machine

/-! ## Little-endian numbers -/

@[simp] theorem leBytes_length : ∀ k v : Nat, (leBytes k v).length = k
  | 0, _ => rfl
  | k + 1, v => by simp [leBytes, leBytes_length k]

/-- The bytes of a number spell it modulo their range (R172). -/
theorem leValue_leBytes_mod : ∀ k v : Nat, leValue (leBytes k v) = v % 256 ^ k
  | 0, v => by simp [leBytes, leValue, Nat.mod_one]
  | k + 1, v => by
    have hb : (BitVec.ofNat 8 v).toNat = v % 256 := by simp
    rw [leBytes, leValue, leValue_leBytes_mod k, hb, pow_succ', Nat.mod_mul]

theorem leValue_leBytes {k v : Nat} (h : v < 256 ^ k) : leValue (leBytes k v) = v := by
  rw [leValue_leBytes_mod, Nat.mod_eq_of_lt h]

/-! ## Flags, object numbers and enumerations -/

@[simp] theorem readFlag_flagByte (b : Bool) : readFlag (flagByte b) = some b := by cases b <;> rfl

@[simp] theorem readChan_chanByte (c : Chan) : readChan (chanByte c) = some c := by revert c; decide

@[simp] theorem readEight_eightByte (k : Fin 8) : readEight (eightByte k) = some k := by revert k; decide

@[simp] theorem readFn_code (fn : Fn) : readFn fn.code = some fn := by cases fn <;> rfl

@[simp] theorem readPolarity_code (p : Polarity) : readPolarity p.code = some p := by cases p <;> rfl

@[simp] theorem readAuxRole_code (r : AuxRole) : readAuxRole r.code = some r := by cases r <;> rfl

@[simp] theorem readAuxPolarity_code (b : Bool) : readAuxPolarity (auxPolarityCode b) = some b := by
  cases b <;> rfl

@[simp] theorem readBinding_code : ∀ b : Option PhysIn, readBinding (bindingCode b) = some b
  | none => rfl
  | some .in1 => rfl
  | some .in2 => rfl
  | some .in3 => rfl
  | some .in4 => rfl
  | some .aux => rfl

@[simp] theorem readRefFreq_code (f : RefFreq) : readRefFreq f.code = some f := by cases f <;> rfl

@[simp] theorem readLossAction_code (a : LossAction) : readLossAction a.code = some a := by cases a <;> rfl

/-- NONE is no selected source (R1); the other two are read back. -/
theorem readSource_code {src : Source} (h : src ≠ .none) : readSource src.code = some src := by
  cases src <;> first | exact absurd rfl h | rfl

@[simp] theorem readRestartKind_code (k : RestartKind) : readRestartKind k.code = some k := by cases k <;> rfl

/-- A channel byte of 1 to 4 names its channel; every other names none (R172). -/
theorem readChan_cases (b : Byte) :
    (∃ c : Chan, readChan b = some c ∧ b = chanByte c) ∨ (readChan b = none ∧ ¬(1 ≤ b.toNat ∧ b.toNat ≤ 4)) := by
  revert b; decide

/-- A descriptor or slot byte of 0 to 7 names its object; every other names none (R172). -/
theorem readEight_cases (b : Byte) :
    (∃ k : Fin 8, readEight b = some k ∧ b = eightByte k) ∨ (readEight b = none ∧ 8 ≤ b.toNat) := by
  by_cases h : b.toNat < 8
  · refine .inl ⟨⟨b.toNat, h⟩, by simp [readEight, h], ?_⟩
    apply BitVec.eq_of_toNat_eq
    simp only [eightByte, BitVec.toNat_ofNat]
    omega
  · exact .inr ⟨by simp [readEight, h], by omega⟩

end Sys2Proof.Machine
end

