-- ==== Sys2Proof/WellFormed.lean ====
section
/-! DEFINITION. Well-formedness of a row's operands: a command row is the one its payload spells and fits a frame, and an edge lists each channel and each taking once. -/

namespace Sys2Proof

/-- A list names nothing twice. -/
def noRepeat {α : Type} [DecidableEq α] : List α → Bool
  | [] => true
  | a :: rest => !rest.contains a && noRepeat rest

/-- A command row is the one that its payload spells, and the payload fits a frame (R154, R159, R173). -/
def Instr.commandWf (i : Instr) : Bool :=
  match i.payload with
  | none => true
  | some p => decide (decodeCommand p = i) && decide (p.length ≤ Config.maxPayload)

/-- The order operands of an edge name no channel and no taking twice; a reception has at least one sample. -/
def Instr.eventWf : Instr → Bool
  | .inputEdge _ _ _ _ chans takings => noRepeat chans && noRepeat takings
  | .frameReceived samples => !samples.isEmpty
  | _ => true

/-- A row that can occur. -/
def Instr.wellFormed (i : Instr) : Bool := i.commandWf && i.eventWf

end Sys2Proof
end

