-- ==== Sys2Proof/Laws/PerInstr.lean ====
section
/-! SUPPORT. The family PayloadRoundTrip, one lemma for each row: a well-formed command row fits a frame and is the row that its payload spells (R154, R159, R173). An event has no payload. -/

namespace Sys2Proof.Laws.PayloadRoundTrip

/-- The payload of a well-formed row fits a frame and decodes to the row. -/
def Statement (i : Instr) : Prop :=
  i.wellFormed = true → ∀ p, i.payload = some p → p.length ≤ 1040 ∧ decodeCommand p = i

theorem of_wellFormed (i : Instr) : Statement i := by
  intro h p hp
  simp only [Instr.wellFormed, Instr.commandWf, hp, Bool.and_eq_true, decide_eq_true_eq] at h
  exact ⟨h.1.2, h.1.1⟩

theorem powerOnReset : Statement .powerOnReset := of_wellFormed _
theorem startUpEnd : Statement .startUpEnd := of_wellFormed _
theorem monitorWindowEnd : Statement .monitorWindowEnd := of_wellFormed _
theorem starvation : Statement .starvation := of_wellFormed _
theorem acquireEnd : Statement .acquireEnd := of_wellFormed _
theorem relockEnd : Statement .relockEnd := of_wellFormed _
theorem inputEdge (input : PhysIn) (rising : Bool) (tick : Coarse) (bins : Vector Bin 4) (chans : List Chan) (takings : List (Chan × Desc)) :
    Statement (.inputEdge input rising tick bins chans takings) := of_wellFormed _
theorem holdoffExpiry (c : Chan) : Statement (.holdoffExpiry c) := of_wellFormed _
theorem deadTimeExpiry (c : Chan) : Statement (.deadTimeExpiry c) := of_wellFormed _
theorem calHit (tick : Coarse) (bin : Bin) : Statement (.calHit tick bin) := of_wellFormed _
theorem calDeadline : Statement .calDeadline := of_wellFormed _
theorem gateNominalEnd (g : Desc) : Statement (.gateNominalEnd g) := of_wellFormed _
theorem gateTimeout (g : Desc) : Statement (.gateTimeout g) := of_wellFormed _
theorem recordFormation (g : Desc) : Statement (.recordFormation g) := of_wellFormed _
theorem frameReceived (samples : List Bool) : Statement (.frameReceived samples) := of_wellFormed _
theorem receiveGapExpiry : Statement .receiveGapExpiry := of_wellFormed _
theorem linkBreak : Statement .linkBreak := of_wellFormed _
theorem transmitEnd : Statement .transmitEnd := of_wellFormed _
theorem unknownCommand (payload : List Byte) : Statement (.unknownCommand payload) := of_wellFormed _
theorem identify (args : List Byte) : Statement (.identify args) := of_wellFormed _
theorem status (args : List Byte) : Statement (.status args) := of_wellFormed _
theorem restartMeasure (args : List Byte) : Statement (.restartMeasure args) := of_wellFormed _
theorem restartFull (args : List Byte) : Statement (.restartFull args) := of_wellFormed _
theorem tbConfig (args : List Byte) : Statement (.tbConfig args) := of_wellFormed _
theorem tbStart (args : List Byte) : Statement (.tbStart args) := of_wellFormed _
theorem tbStop (args : List Byte) : Statement (.tbStop args) := of_wellFormed _
theorem tbSelect (args : List Byte) : Statement (.tbSelect args) := of_wellFormed _
theorem auxSet (args : List Byte) : Statement (.auxSet args) := of_wellFormed _
theorem channelSet (args : List Byte) : Statement (.channelSet args) := of_wellFormed _
theorem channelRead (args : List Byte) : Statement (.channelRead args) := of_wellFormed _
theorem calibrate (args : List Byte) : Statement (.calibrate args) := of_wellFormed _
theorem tableRead (args : List Byte) : Statement (.tableRead args) := of_wellFormed _
theorem gateWrite (args : List Byte) : Statement (.gateWrite args) := of_wellFormed _
theorem gateCommit (args : List Byte) : Statement (.gateCommit args) := of_wellFormed _
theorem gateEnable (args : List Byte) : Statement (.gateEnable args) := of_wellFormed _
theorem gateStopFinish (args : List Byte) : Statement (.gateStopFinish args) := of_wellFormed _
theorem gateStopAbort (args : List Byte) : Statement (.gateStopAbort args) := of_wellFormed _
theorem gateRead (args : List Byte) : Statement (.gateRead args) := of_wellFormed _
theorem slotRead (args : List Byte) : Statement (.slotRead args) := of_wellFormed _
theorem slotHold (args : List Byte) : Statement (.slotHold args) := of_wellFormed _
theorem slotRelease (args : List Byte) : Statement (.slotRelease args) := of_wellFormed _
theorem statsClear (args : List Byte) : Statement (.statsClear args) := of_wellFormed _
theorem streamSet (args : List Byte) : Statement (.streamSet args) := of_wellFormed _
theorem streamClear (args : List Byte) : Statement (.streamClear args) := of_wellFormed _
theorem noticeMask (args : List Byte) : Statement (.noticeMask args) := of_wellFormed _
theorem lnkclkStop : Statement .lnkclkStop := of_wellFormed _
theorem lnkclkReturn : Statement .lnkclkReturn := of_wellFormed _
theorem lnkRxReturnToMark : Statement .lnkRxReturnToMark := of_wellFormed _
theorem rstNRelease : Statement .rstNRelease := of_wellFormed _
theorem referenceEdge : Statement .referenceEdge := of_wellFormed _

end Sys2Proof.Laws.PayloadRoundTrip
end

