-- ==== Sys2Proof/Tests/Slice0.lean ====
section
/-! SUPPORT. Tests of the model on values that the reference works out, the smoke test of well-formedness, and, for each obligation with hypotheses, a state and operands that meet them. -/

namespace Sys2Proof.Tests

open Sys2Proof.Machine

/-! ## Helpers -/

/-- The part in RUN on INT. -/
def running : State :=
  { State.reset with tb := { Timebase.reset with state := .run, inForce := .int, ticked := true } }

/-- The part in RUN at coarse count `x`. -/
def runningAt (x : Coarse) : State := running.modTb (fun tb => { tb with coarse := x })

/-- The part with another timebase. -/
def withTb (tb : Timebase) : State := { State.reset with tb := tb }

/-- A FREQ descriptor on CH1, gate mode TIME of `len` µs, IMMEDIATE, CONTINUOUS, timeout 2^0 ms, slot 5. -/
def freqCopy (len : Nat) : GateCopy :=
  { fn := .freq, primary := some 0, secondary := none, mode := .time len, arm := .immediate,
    continuous := true, timeout := some 0, slot := 5 }

def totalizeCopy (len : Nat) : GateCopy := { freqCopy len with fn := .totalize }

def intervalCopy : GateCopy :=
  { fn := .interval, primary := some 2, secondary := some 3, mode := .none, arm := .immediate,
    continuous := false, timeout := some 0, slot := 1 }

/-- A descriptor in a state under an active copy, which is its staged copy too. -/
def descIn (st : DState) (cp : GateCopy) : Descriptor := { Descriptor.idle cp cp with state := st }

def sample (x : Coarse) : Sample := { instant := x, counts := #v[1, 2, 3, 4] }

def stampAt (x : Coarse) (n : Count) : Stamp :=
  { chan := 0, n := n, t := instantTime x, flags := QFlags.clear, coarse := x }

/-- A gate context opened by a stamp of CH1 at count 100, with C_end at `cEnd`. -/
def context (cEnd : Option Coarse) : GateCtx :=
  { openStamp := some (stampAt 100 7), opening := sample 100, cEnd := cEnd, last := none,
    flags := QFlags.clear, endReached := false }

/-- A gate context of TOTALIZE, opened by an instant. -/
def sampledContext (cEnd : Option Coarse) : GateCtx := { context cEnd with openStamp := none }

/-- `s` with descriptor 2 replaced. -/
def withDesc (s : State) (d : Descriptor) : State := s.modDesc 2 (fun _ => d)

/-- A gate of descriptor 2 in progress in RUN at count 500. -/
def gate (st : DState) (cp : GateCopy) (k : GateCtx) : State :=
  withDesc (runningAt 500) { descIn st cp with ctx := some k }

/-- CH2 is in calibration with `hits` hits, deadline 4,000,000. -/
def calibrating (hits : Nat) : State :=
  { running.modChan 1 (fun ch => { ch with
      attempt := { number := 1, outcome := .inProgress, spanFound := 0, hits := hits } }) with
    cal := some { chan := 1, deadline := 4000000 } }

def bins : Vector Bin 4 := Vector.replicate 4 40

/-- The outcome's next state, and reset where there is none. -/
def next (o : Host.Outcome State Fault Refusal) : State :=
  match o with
  | .next t => t
  | _ => State.reset

/-! ## Well-formedness refuses ill-formed rows -/

theorem test_wf_refuses_command_under_another_row :
    (Instr.unknownCommand [0x11]).wellFormed = false := by decide

theorem test_wf_refuses_restart_full_with_another_kind :
    (Instr.restartFull [1]).wellFormed = false := by decide

theorem test_wf_refuses_channel_named_twice :
    (Instr.inputEdge .in1 true 5 bins [0, 0] []).wellFormed = false := by decide

theorem test_wf_refuses_taking_named_twice :
    (Instr.inputEdge .in1 true 5 bins [] [(0, 3), (0, 3)]).wellFormed = false := by decide

theorem test_wf_refuses_empty_reception : (Instr.frameReceived []).wellFormed = false := by decide

theorem test_wf_refuses_payload_beyond_a_frame :
    (Instr.tbStart (List.replicate 1040 0)).commandWf = false := by decide +kernel

theorem test_wf_accepts_gate_stop_abort : (Instr.gateStopAbort [3, 2]).wellFormed = true := by decide

/-! ## Payloads -/

/-- 11.6: SLOT READ of slot 5 without clearing. -/
theorem test_payload_slot_read : decodeCommand [0x50, 0x05, 0x00] = .slotRead [0x05, 0x00] := by decide

theorem test_payload_gate_stop_modes :
    decodeCommand [0x43, 2, 1] = .gateStopFinish [2, 1] ∧ decodeCommand [0x43, 2, 2] = .gateStopAbort [2, 2] := by
  decide

theorem test_table_word_spells_nothing : decodeTableWord 8 0x11 = none := by decide

/-! ## Worked examples of the reference -/

/-- 3.9: the composed timestamp, its variation out of span, and the wrap at the start of RUN. -/
theorem test_timestamp_examples :
    composeTime 1000000 301 (BitVec.ofInt 16 (-150)) = 1023999549
    ∧ composeTime 1000000 1023 (BitVec.ofInt 16 (-150)) = 1023998827
    ∧ composeTime 2 324 (BitVec.ofInt 16 (-3000)) = 18446744073709550340 := by decide

/-- 3.10: the first edge of the burst is stamped with fine 84, and the one at 5,002 falls into its dead time. -/
theorem test_default_fine : defaultTable[10] = 84 ∧ defaultTable[127] = 1020 ∧ defaultTable[128] = 1023 := by
  simp [defaultTable, binVector, defaultEntry]

/-- 6.8: frequency and period from one pair of stamps. -/
theorem test_frequency_and_period :
    freqValue 1000000 40960004096 = (9999999000000, false)
    ∧ periodValue 1000000 40960004096 = (100000010, false) := by decide

/-- 6.8: the ratio, and both intervals. -/
theorem test_ratio_and_intervals :
    ratioValue 10000000 3000000 = (14316557653, false)
    ∧ intervalValue 4451 = (10866699, false) ∧ intervalValue (BitVec.ofInt 64 (-4451)) = (-10866699, false) := by
  decide

/-- R132: INTERVAL values of −3 and −4 fs have the mean −4 fs. -/
theorem test_mean_rounds_away :
    ({ fn := .interval, count := 2, minimum := some (-4), maximum := some (-3), sum := -7 } : Stats).mean
      = some (-4) := by decide

/-- R154: the CRC of the nine digits. -/
theorem test_crc_check_value :
    crc [0x31, 0x32, 0x33, 0x34, 0x35, 0x36, 0x37, 0x38, 0x39] = 0x29B1 := by decide +kernel

/-- 4.10: entries of the built table, from C(b−1) and h(b): bin 1, bin 37 and bin 130, which is stored as 1023. -/
theorem test_built_entries :
    roundHalfUp (2048 * 512 + 1024 * 480) 131072 = 12
    ∧ roundHalfUp (2048 * 18520 + 1024 * 500) 131072 = 293
    ∧ min 1023 (roundHalfUp (2048 * 65535 + 1024 * 1) 131072) = 1023 := by decide

/-- 8.10, steps 4, 6 and 8: a drop at a full FIFO, and a GAP of 2 ahead of the next stamp. -/
theorem test_gap_closes_a_run :
    ({ fifo := [], drops := #v[2, 0, 0, 0], frameNumber := 16 } : StreamUnit).offer (stampAt 9 805)
      = { fifo := [.gap 0 2, .stamp 0 805 (instantTime 9) QFlags.clear], drops := #v[0, 0, 0, 0],
          frameNumber := 16 } := by decide

/-- 5.14: GATE ENABLE at 1,000,000 arms descriptor 2 with timeout instant 1,400,000. -/
theorem test_enable_arms :
    let d := (next (exec (.gateEnable [2]) (withDesc (runningAt 1000000) (descIn .off (freqCopy 1000))))).desc 2
    d.state = .armed ∧ d.timeoutAt = some 1400000 := by decide

/-- 5.14: the CH1 stamp at 1,000,020 opens the gate with C_end 1,400,020. -/
theorem test_stamp_opens :
    let s := withDesc (runningAt 1000020) (descIn .armed (freqCopy 1000))
    let d := (s.offer 2 (.stamp (stampAt 1000020 5001)) (sample 1000020)).desc 2
    d.state = .gateOpen ∧ (d.ctx.bind (fun k => k.cEnd)) = some 1400020 ∧ d.timeoutAt = none := by decide

/-- 1.11: the loss at 50.0 ms. -/
theorem test_loss_begins_relock :
    let tb := (next (exec .starvation (withTb { Timebase.reset with
      selected := .ext, inForce := .ext, state := .run, monitor := .good, runCount := 100
      changeCount := 2 }))).tb
    tb.state = .relock ∧ tb.inForce = .int ∧ tb.holdover = true ∧ tb.monitor = .absent ∧ tb.changeCount = 3
      ∧ tb.lastCause = .loss := by decide

/-- 2.8: the edges at 1,000 and 1,020 with a holdoff of 40. -/
theorem test_holdoff :
    let s := (runningAt 0).modChan 0 (fun ch => { ch with set := { ch.set with holdoff := 40, prescale := 2 } })
    let t := next (exec (.inputEdge .in1 true 1000 bins [] []) s)
    let u := next (exec (.inputEdge .in1 true 1020 bins [] []) t)
    (t.chan 0).n = 1 ∧ (t.chan 0).holdoffEnd = some 1040 ∧ (u.chan 0).n = 1 := by decide +kernel

/-- R89: CH3 and CH4 on IN3 with a start and a stop at one tick. The start taken first, the stop closes the gate at once;
the stop taken first, the gate stays open. -/
theorem test_start_and_stop_at_one_tick :
    let s := (withDesc (runningAt 990) (descIn .armed intervalCopy)).modChan 3
      (fun ch => { ch with set := { ch.set with binding := some .in3 } })
    let t := next (exec (.inputEdge .in3 true 1000 bins [] [(2, 2), (3, 2)]) s)
    let u := next (exec (.inputEdge .in3 true 1000 bins [] [(3, 2), (2, 2)]) s)
    (t.desc 2).gateNumber = 1 ∧ (u.desc 2).gateNumber = 0 ∧ (u.desc 2).state = .gateOpen := by decide +kernel

/-- R1, R3: at 20 MHz two edges of REF_IN make one divided edge, at 10 MHz each is one. -/
theorem test_divider_halves_20_mhz :
    let s := withTb { Timebase.reset with refFreq := .mhz20 }
    let t := next (exec .referenceEdge s)
    t.tb.windowCount = 0 ∧ (next (exec .referenceEdge t)).tb.windowCount = 1
      ∧ (next (exec .referenceEdge State.reset)).tb.windowCount = 1 := by decide

/-- R7, R42: an edge at 500 finds the dead time over whose instant, 104, the counter has passed, and one at 103 does
not. -/
theorem test_counter_passes_no_instant :
    let s := (runningAt 100).modChan 0 (fun ch => { ch with deadEnd := some 104 })
    ((next (exec (.inputEdge .in2 true 500 bins [] []) s)).chan 0).deadEnd = none
      ∧ ((next (exec (.inputEdge .in2 true 103 bins [] []) s)).chan 0).deadEnd = some 104 := by decide +kernel

/-- R6, R21: right after ACQUIRE_END, at count 0, no tick of RUN has come: an edge that closes there is not counted, and
one that closes at count 1 is. -/
theorem test_edge_before_the_first_tick_of_run :
    let s := next (exec .acquireEnd (withTb { Timebase.reset with state := .acquire }))
    ((next (exec (.inputEdge .in1 true 0 bins [] []) s)).chan 0).n = 0
      ∧ ((next (exec (.inputEdge .in1 true 1 bins [] []) s)).chan 0).n = 1 := by decide +kernel

/-- R7, R92, R119: behind a close event at 500 an opening and a closing AUX event of that tick wait. Before the counter
leaves 501 both records are formed, the second of them as soon as it is due. -/
theorem test_record_that_is_due_at_once :
    let e : CloseEvent := { completion := .normal, stamp := none, sample := sample 500 }
    let s := withDesc (runningAt 500) { descIn .gateOpen { totalizeCopy 1 with mode := .aux } with
      ctx := some (sampledContext none), closeEvent := some e
      deferred := [(.auxOpen, sample 500), (.auxClose, sample 500)] }
    let d := (next (exec (.inputEdge .in4 false 600 bins [] []) s)).desc 2
    d.gateNumber = 2 ∧ d.state = .armed ∧ d.closeEvent = none := by decide +kernel

/-- 5.14 with R7: a TOTALIZE gate of 1 µs opened at 100 ends at 500 while the counter goes on to 600, and its record
has the next gate opened at 500. -/
theorem test_totalize_gate_ends_on_the_way :
    let s := withDesc (runningAt 100) { descIn .gateOpen (totalizeCopy 1) with ctx := some (sampledContext (some 500)) }
    let d := (next (exec (.inputEdge .in4 false 600 bins [] []) s)).desc 2
    d.gateNumber = 1 ∧ (d.ctx.map (fun k => k.opening.instant)) = some 500
      ∧ (d.ctx.bind (fun k => k.cEnd)) = some 900 := by decide +kernel

/-- R153: a byte whose stop bit is at space is taken, and the receiver waits for mark; it then takes the next byte. -/
theorem test_stop_bit_at_space :
    let low := lineSamples ((lineBits 0x5B).dropLast ++ [false])
    let s := next (exec (.frameReceived low) State.reset)
    let t := next (exec (.frameReceived ([false, true] ++ lineOf [0x02])) s)
    s.link.rxLine = .awaitMark ∧ s.link.rxBuffer.map (fun b => b.val) = [0x5B]
      ∧ t.link.rxBuffer.map (fun b => b.val) = [0x5B, 0x02] := by decide +kernel

/-- 11.6: the nine bytes of the SLOT READ frame, sampled on the line, bring the command to the queue. -/
theorem test_frame_on_the_line :
    let frame := frameBytes 0x01 [0x50, 0x05, 0x00]
    frame.length = 9
      ∧ (next (exec (.frameReceived (true :: lineOf frame)) State.reset)).link.commandQueue = [[0x50, 0x05, 0x00]] := by
  decide +kernel

/-- R69, R84, R85: a TB SELECT that relocks in RUN ends the calibration of CH2, and an IMMEDIATE descriptor on CH2 that
waits arms there. -/
theorem test_relock_arms_what_the_calibration_held_up :
    let s := withDesc ((calibrating 9).modTb (fun tb => { tb with inForce := .ext, selected := .ext }))
      (descIn .waitArm { freqCopy 1 with primary := some 1 })
    let u := next (exec (.tbSelect [2]) s)
    u.tb.state = .relock ∧ u.cal = none ∧ (u.desc 2).state = .armed
      ∧ (u.chan 1).attempt.outcome = .timebase := by decide +kernel

/-- 4.10: CALIBRATE 2 at 10,000,000 has its deadline at 14,000,000. -/
theorem test_calibrate_deadline :
    (next (exec (.calibrate [2]) (runningAt 10000000))).cal = some { chan := 1, deadline := 14000000 } := by decide

/-- 11.6: the bytes of the value 10,000,001,000,000. -/
theorem test_value_bytes :
    leSigned 10000001000000 = [0x40, 0xE2, 0x81, 0x4E, 0x18, 0x09, 0x00, 0x00] := by decide

/-! ## Witnesses: states and operands that meet the hypotheses of each obligation -/

theorem witness_StepTakesFrontOfQueue :
    ({ State.reset with pending := [.starvation, .tbStart []] } : State).pending = .starvation :: [.tbStart []] := rfl

/-- A head command that can be executed, one that LNKCLK holds up, and a part in RUN with nothing due. -/
theorem witness_IdlePartExecutesHeadCommandElseTicks :
    (let s := State.reset.modLink (fun l => { l with commandQueue := [[0x11]] })
     s.pending = [] ∧ s.link.commandQueue = [0x11] :: [] ∧ s.canExecute [0x11] = true
      ∧ ({ s with lnkclk := false } : State).canExecute [0x11] = false)
    ∧ (running.pending = [] ∧ running.link.commandQueue = [] ∧ running.tb.state = .run)
    ∧ running.nothingDue :=
  ⟨by decide, by decide, State.nothingDue_of_all (by decide +kernel)⟩

theorem witness_PowerOnResetHoldsUntilStartUpEnds :
    let s : State := { State.reset with power := .held }
    s.power ≠ .ready ∧ Instr.starvation ≠ .powerOnReset ∧ ¬(s.power = .held ∧ Instr.starvation = .rstNRelease)
      ∧ ¬(s.power = .startUp ∧ Instr.starvation = .startUpEnd)
      ∧ ({ s with power := .startUp } : State).power = .startUp := by decide

/-- The part after reset, both ends of a good window, the 99th and the 100th good window, and the divider's two phases. -/
theorem witness_MonitorFollowsWindowsEdgesAndStarvation :
    State.reset.power = .ready ∧ State.reset.tb.monitor = .absent
      ∧ (990 ≤ (withTb { Timebase.reset with windowCount := 990 }).tb.windowCount
          ∧ (withTb { Timebase.reset with windowCount := 1010 }).tb.windowCount ≤ 1010)
      ∧ ¬(990 ≤ (withTb { Timebase.reset with windowCount := 989 }).tb.windowCount)
      ∧ (let s := withTb { Timebase.reset with monitor := .present, runCount := 98, windowCount := 1000 }
         s.power = .ready ∧ s.tb.monitor = .present ∧ s.tb.runCount + 1 < 100)
      ∧ (let s := withTb { Timebase.reset with monitor := .present, runCount := 99, windowCount := 1000 }
         s.tb.monitor = .present ∧ ¬(s.tb.runCount + 1 < 100) ∧ s.tb.autoRevert = false)
      ∧ State.reset.tb.refFreq = .mhz10
      ∧ (withTb { Timebase.reset with refFreq := .mhz20, dividerHalf := true }).tb.refFreq ≠ .mhz10 := by decide

/-- A loss in RUN with EXT in force under each action, one in ACQUIRE, each at a starvation or the end of a bad window,
and the hundredth good window in holdover. -/
theorem witness_LossAndReturnAreHandledAsConfigured :
    (∀ action : LossAction, ∀ state : TbState, state ≠ .halt →
      let s := withTb { Timebase.reset with selected := .ext, inForce := .ext, state := state, monitor := .good
                                            runCount := 100, lossAction := action, windowCount := 989 }
      s.power = .ready ∧ s.tb.monitor ≠ .absent ∧ s.tb.inForce = .ext ∧ s.tb.selected = .ext ∧ s.tb.state ≠ .halt
        ∧ s.tb.lossDetect = true ∧ s.tb.lossAction = action ∧ s.link.mask.timebase = true
        ∧ (∀ g : Desc, (s.desc g).closeEvent = none)
        ∧ ¬(990 ≤ s.tb.windowCount ∧ s.tb.windowCount ≤ 1010 ∧ s.tb.windowStarved = false))
    ∧ (let s := withTb { Timebase.reset with selected := .ext, inForce := .int, state := .run, holdover := true
                                             monitor := .present, runCount := 99, windowCount := 1010 }
       s.power = .ready ∧ s.tb.monitor = .present ∧ s.tb.runCount = 99 ∧ 990 ≤ s.tb.windowCount
      ∧ s.tb.windowCount ≤ 1010 ∧ s.tb.windowStarved = false ∧ s.tb.state = .run ∧ s.tb.holdover = true) := by
  refine ⟨?_, by decide⟩
  intro action state h
  cases action <;> cases state <;> first | exact absurd rfl h | decide

theorem witness_PhaseTimerExpiryEntersRun :
    (withTb { Timebase.reset with state := .acquire }).power = .ready
      ∧ (withTb { Timebase.reset with state := .acquire }).tb.state = .acquire
      ∧ (withTb { Timebase.reset with state := .relock }).tb.state = .relock
      ∧ State.reset.tb.state ≠ .acquire ∧ State.reset.tb.state ≠ .relock := by decide

/-- A command in RUN, one whose every field is refused in turn, and one that is stored. -/
theorem witness_TbConfigStoresOrNamesTheField :
    running.executes [0x10, 1, 1, 0, 1, 0] = true ∧ running.tb.state ≠ .halt
      ∧ State.reset.executes [0x10, 0, 1, 0, 1, 0] = true ∧ State.reset.executes [0x10, 2, 3, 0, 1, 0] = true
      ∧ State.reset.executes [0x10, 2, 2, 2, 1, 0] = true ∧ State.reset.executes [0x10, 2, 2, 1, 3, 0] = true
      ∧ State.reset.executes [0x10, 2, 2, 1, 2, 2] = true ∧ State.reset.tb.state = .halt
      ∧ Source.ext ≠ .none
      ∧ State.reset.executes
          (0x10 :: [Source.ext.code, RefFreq.mhz20.code, flagByte true, LossAction.halt.code, flagByte true]) = true := by
  decide

theorem witness_TbStartEntersAcquire :
    State.reset.executes [0x11] = true ∧ State.reset.tb.state = .halt
      ∧ (State.reset.tb.selected = .ext → State.reset.tb.monitor = .good)
      ∧ running.executes [0x11] = true ∧ running.tb.state ≠ .halt
      ∧ (withTb { Timebase.reset with selected := .ext }).executes [0x11] = true
      ∧ (withTb { Timebase.reset with selected := .ext }).tb.selected = .ext
      ∧ (withTb { Timebase.reset with selected := .ext }).tb.monitor ≠ .good := by decide

/-- TB STOP in HALT, in ACQUIRE, with a gate in progress, with a TOTALIZE record that waits, and with two that wait: a RATIO
record with a pending commit and a stamp behind it, and a NO_CLOSE record of INTERVAL. -/
theorem witness_TbStopHaltsTimebaseAndGates :
    (State.reset.executes [0x12] = true ∧ State.reset.tb.state = .halt
      ∧ (withTb { Timebase.reset with state := .acquire }).executes [0x12] = true
      ∧ (gate .gateOpen (freqCopy 1) (context (some 500))).executes [0x12] = true
      ∧ (gate .gateOpen (freqCopy 1) (context (some 500))).tb.state = .run
      ∧ (∀ g : Desc, ((gate .gateOpen (freqCopy 1) (context (some 500))).desc g).closeEvent = none))
    ∧ (let s := withDesc (runningAt 500) { descIn .gateOpen (totalizeCopy 1) with
         ctx := some (sampledContext (some 500))
         closeEvent := some { completion := .normal, stamp := none, sample := sample 500 } }
       s.executes [0x12] = true ∧ s.tb.state = .run ∧ (∀ h : Desc, h ≠ 2 → (s.desc h).closeEvent = none)
        ∧ (s.desc 2).closeEvent = some { completion := .normal, stamp := none, sample := sample 500 }
        ∧ (s.desc 2).ctx = some (sampledContext (some 500)) ∧ (s.desc 2).deferred = []
        ∧ (s.desc 2).active.fn = .totalize ∧ (s.desc 2).active.primary = some 0
        ∧ (sampledContext (some 500)).openStamp = none ∧ (s.desc 2).commitPending = false)
    ∧ (let e : CloseEvent := { completion := .normal, stamp := some (stampAt 500 9), sample := sample 500 }
       let f : CloseEvent := { completion := .noClose, stamp := none, sample := sample 500 }
       let ratio : GateCopy := { freqCopy 1 with fn := .ratio, secondary := some 1 }
       let s := (withDesc (runningAt 500) { descIn .closing ratio with
           ctx := some (context (some 450)), closeEvent := some e, commitPending := true
           deferred := [(.stamp (stampAt 500 10), sample 500)] }).modDesc 5
         (fun _ => { descIn .gateOpen intervalCopy with ctx := some (context none), closeEvent := some f })
       s.executes [0x12] = true ∧ s.tb.state = .run ∧ (s.desc 2).closeEvent = some e ∧ (s.desc 5).closeEvent = some f
        ∧ (s.desc 2).ctx = some (context (some 450)) ∧ (s.desc 2).commitPending = true ∧ (s.desc 2).active = ratio
        ∧ (s.desc 2).deferred ≠ [] ∧ (context (some 450)).openStamp = some (stampAt 100 7)
        ∧ (s.desc 5).ctx = some (context none) ∧ (s.desc 5).active.fn = .interval) := by decide

/-- One state for each row of the table of R11. -/
theorem witness_TbSelectFollowsItsTable :
    State.reset.executes [0x13, 3] = true ∧ State.reset.executes [0x13, 1] = true ∧ State.reset.tb.state = .halt
      ∧ (withTb { Timebase.reset with state := .relock }).executes [0x13, 2] = true
      ∧ (withTb { Timebase.reset with state := .run, inForce := .ext }).executes [0x13, 1] = true
      ∧ running.executes [0x13, 1] = true ∧ running.tb.inForce = .int ∧ running.tb.monitor ≠ .good
      ∧ (withTb { running.tb with monitor := .good }).executes [0x13, 1] = true
      ∧ (withTb { running.tb with inForce := .ext }).executes [0x13, 2] = true
      ∧ (withTb { running.tb with holdover := true }).executes [0x13, 2] = true
      ∧ running.executes [0x13, 2] = true ∧ running.tb.holdover = false := by decide

/-- A calibration in RUN that TB STOP, each TB SELECT, a loss at a starvation or a bad window under either action, and
auto-revert find. -/
theorem witness_LeavingRunAbortsCalibration :
    (calibrating 9).cal = some { chan := 1, deadline := 4000000 } ∧ (calibrating 9).tb.state = .run
      ∧ (calibrating 9).executes [0x12] = true
      ∧ ((calibrating 9).executes [0x13, 1] = true
        ∧ ((calibrating 9).modTb (fun tb => { tb with monitor := .good })).tb.inForce = .int)
      ∧ (∀ action : LossAction,
          let s := (calibrating 9).modTb (fun tb =>
            { tb with inForce := .ext, selected := .ext, monitor := .present, lossAction := action, windowCount := 1011 })
          s.power = .ready ∧ s.tb.monitor ≠ .absent ∧ s.tb.inForce = .ext ∧ s.tb.lossDetect = true
            ∧ s.tb.lossAction = action ∧ s.cal = some { chan := 1, deadline := 4000000 }
            ∧ ¬(990 ≤ s.tb.windowCount ∧ s.tb.windowCount ≤ 1010 ∧ s.tb.windowStarved = false)
            ∧ s.executes [0x13, 2] = true)
      ∧ (let s := (calibrating 9).modTb (fun tb =>
           { tb with selected := .ext, holdover := true, monitor := .present, runCount := 99, windowCount := 990
                     autoRevert := true })
         s.power = .ready ∧ (990 ≤ s.tb.windowCount ∧ s.tb.windowCount ≤ 1010 ∧ s.tb.windowStarved = false)
          ∧ s.tb.monitor = .present ∧ s.tb.runCount = 99 ∧ s.tb.holdover = true ∧ s.tb.autoRevert = true) := by
  refine ⟨by decide, by decide, by decide, by decide, ?_, by decide⟩
  intro action
  cases action <;> decide

/-- An edge to whose tick the counter comes, that counts and that does not, one outside RUN, and one at the count of RUN's
entry. -/
theorem witness_CountedEdgesAdvanceTheCount :
    running.power = .ready ∧ running.tb.state = .run ∧ running.tb.ticked = true ∧ running.comesTo 5
      ∧ running.countsEdge 0 .in1 true 5 ∧ ¬running.countsEdge 1 .in1 true 5 ∧ State.reset.tb.state = .halt
      ∧ (let s := withTb { Timebase.reset with state := .run }
         s.power = .ready ∧ s.tb.ticked = false ∧ (0 : Coarse) = s.tb.coarse ∧ (1 : Coarse) ≠ s.tb.coarse) := by
  refine ⟨by decide, by decide, by decide, .inr (State.passesNothing_of_all (by decide +kernel)), ?_, ?_, by decide,
    by decide⟩
  · refine ⟨by decide, by decide, by decide, by decide, ?_⟩
    intro x h
    cases h
  · intro h
    exact absurd h.1 (by decide)

/-- An edge of IN1 that is counted and stamped on CH1 alone, with the stamp it gives: tick 5, bin 40. -/
theorem witness_StampedEdgesMoveTheInterpolator :
    running.power = .ready ∧ running.tb.state = .run ∧ running.tb.ticked = true ∧ running.comesTo 5
      ∧ (∀ c : Chan, decide (c = 0) = true ↔ running.countsEdge c .in1 true 5)
      ∧ (∀ c : Chan, decide (c = 0) = true ↔ running.stampsEdge c .in1 true 5)
      ∧ ∃ st : Chan → Stamp, ∀ c, (st c).chan = c ∧ (st c).n = (running.chan c).n + 1 ∧ (st c).coarse = 5
        ∧ (st c).flags = { uncal := !(running.chan c).calibrated, holdover := running.tb.holdover
                           unsettled := decide (running.tb.state = .relock) }
        ∧ ((st c).t.toNat : Int) =
            ((5 : Coarse).toNat * 1024 - ((running.chan c).table[bins[c]] : Int) + (running.chan c).set.skew.toInt) % 2 ^ 64 := by
  have counts : running.countsEdge 0 .in1 true 5 := by
    refine ⟨by decide, by decide, by decide, by decide, ?_⟩
    intro x h
    cases h
  have other : ∀ c : Chan, c ≠ 0 → ¬running.countsEdge c .in1 true 5 := by
    intro c hc h
    have hb : (running.chan c).set.binding = some .in1 := h.1
    clear h
    revert hb
    revert hc
    revert c
    decide
  refine ⟨by decide, by decide, by decide, .inr (State.passesNothing_of_all (by decide +kernel)), ?_, ?_, ?_⟩
  · intro c
    by_cases hc : c = 0
    · subst hc
      exact ⟨fun _ => counts, fun _ => by decide⟩
    · exact ⟨fun h => absurd (of_decide_eq_true h) hc, fun h => absurd h (other c hc)⟩
  · intro c
    by_cases hc : c = 0
    · subst hc
      refine ⟨fun _ => ⟨counts, by decide, ?_, ?_⟩, fun _ => by decide⟩
      · intro r h
        cases h
      · intro x h
        cases h
    · exact ⟨fun h => absurd (of_decide_eq_true h) hc, fun h => absurd h.1 (other c hc)⟩
  · refine ⟨fun c => { chan := c, n := 1, t := 5 * 1024 - 324, flags := { uncal := true, holdover := false, unsettled := false },
                       coarse := 5 }, ?_⟩
    intro c
    have hb : defaultTable[(40 : Bin)] = 324 := by simp [defaultTable, binVector, defaultEntry]
    fin_cases c <;> exact ⟨rfl, rfl, rfl, rfl, by
      show (_ : Int) = ((5 : Coarse).toNat * 1024 - ((defaultTable[(40 : Bin)] : Nat) : Int) + (0 : BitVec 16).toInt) % 2 ^ 64
      rw [hb]
      decide⟩

/-- Every wait, in the order of log entry 4. -/
theorem test_wait_order : Wait.all =
    ([0, 1, 2, 3] : List Chan).map .holdoff ++ ([0, 1, 2, 3] : List Chan).map .deadTime ++ [.deadline]
      ++ ([0, 1, 2, 3, 4, 5, 6, 7] : List Desc).map .nominalEnd
      ++ ([0, 1, 2, 3, 4, 5, 6, 7] : List Desc).map .timeout
      ++ ([0, 1, 2, 3, 4, 5, 6, 7] : List Desc).map .record := by decide

/-- A holdoff ahead of the counter, and an instant on the way of an edge at 500; and a holdoff and a dead time that are both
due at the present count, whose rows in turn leave nothing due. -/
theorem witness_HoldoffAndDeadTimeExpire :
    (let s := running.modChan 0 (fun ch => { ch with holdoffEnd := some 9 })
     s.power = .ready ∧ s.tb.state = .run ∧ (s.chan 0).holdoffEnd = some 9 ∧ s.reaches 9
      ∧ s.comesTo 9 ∧ (9 - s.tb.coarse).toNat ≤ (500 - s.tb.coarse).toNat)
    ∧ (let s := (runningAt 4).modChan 0 (fun ch => { ch with holdoffEnd := some 4, deadEnd := some 4 })
       (s.chan 0).deadEnd = some 4 ∧ s.reaches 4 ∧ 500 ≠ s.tb.coarse
        ∧ s.instantOf (.holdoff 0) = some 4 ∧ s.instantOf (.deadTime 0) = some 4 ∧ (s.tb.coarse - 4).toNat < 2 ^ 53
        ∧ (s.expiresInTurn Wait.all).nothingDue) :=
  ⟨⟨by decide, by decide, by decide, .inr (State.passesNothing_of_all (by decide +kernel)),
    .inr (State.passesNothing_of_all (by decide +kernel)), by decide⟩,
    by decide, .inl (by decide), by decide, by decide, by decide, by decide,
    State.nothingDue_of_all (by decide +kernel)⟩

/-- A descriptor that an active AUX edge arms, and, under role GATE, one that it opens and one that an inactive edge closes;
and, behind a close event, descriptors whose copies can take the AUX event under either role, and one that cannot. -/
theorem witness_ActiveAuxEdgeArmsWaitingDescriptors :
    (let s := withDesc running (descIn .waitArm { freqCopy 1 with arm := .aux })
     s.power = .ready ∧ s.tb.state = .run ∧ s.tb.ticked = true ∧ s.aux.role = .arm
      ∧ (∀ g : Desc, (s.desc g).closeEvent = none)
      ∧ true = s.aux.activeHigh ∧ (s.desc 2).state = .waitArm ∧ (s.desc 2).active.arm = .aux
      ∧ ∀ c ∈ (s.desc 2).active.used, s.chanState c = .online)
    ∧ (withDesc running (descIn .waitArm { freqCopy 1 with arm := .aux })).comesTo 7
    ∧ (∀ st : DState, let s := { withDesc running (descIn st { totalizeCopy 1 with mode := .aux }) with
         aux := { role := .gate, activeHigh := true } }
       s.aux.role = .gate ∧ (∀ g : Desc, (s.desc g).closeEvent = none) ∧ (s.desc 2).active.fn = .totalize
        ∧ (s.desc 2).active.mode = .aux ∧ (s.desc 2).state = st)
    ∧ (∀ role : AuxRole, role = .arm ∨ role = .gate →
       let s := { withDesc (runningAt 500) { descIn .gateOpen { totalizeCopy 1 with mode := .aux } with
           ctx := some (sampledContext none)
           closeEvent := some { completion := .normal, stamp := none, sample := sample 500 } } with
         aux := { role := role, activeHigh := true } }
       s.power = .ready ∧ s.aux.role = role ∧ (s.desc 2).closeEvent ≠ none ∧ (s.desc 2).active.mode = .aux
        ∧ true = s.aux.activeHigh ∧ (s.tb.ticked = true ∧ (500 : Coarse) = s.tb.coarse))
    ∧ (let s := withDesc (runningAt 500) { descIn .gateOpen (totalizeCopy 1) with
         ctx := some (sampledContext none)
         closeEvent := some { completion := .normal, stamp := none, sample := sample 500 } }
       (s.desc 2).closeEvent ≠ none ∧ (s.desc 2).active.mode ≠ .aux ∧ s.comesTo 500) := by
  refine ⟨by decide, .inr (State.passesNothing_of_all (by decide +kernel)), ?_, ?_, by decide, by decide,
    .inl (by decide)⟩
  · intro st
    cases st <;> decide
  · rintro role (rfl | rfl) <;> decide

/-- Refused fields, a busy AUX, and a stored command. -/
theorem witness_AuxSetStoresItsSettings :
    State.reset.executes [0x20, 0, 1] = true ∧ State.reset.executes [0x20, 5, 1] = true
      ∧ State.reset.executes [0x20, 4, 3] = true ∧ State.reset.executes (0x20 :: [AuxRole.signal.code, 1]) = true
      ∧ (¬∃ g : Desc, (State.reset.desc g).running = true)
      ∧ (let s := withDesc running (descIn .armed { freqCopy 1 with arm := .aux })
         s.executes (0x20 :: [AuxRole.gate.code, 2]) = true ∧ (s.desc 2).running = true ∧ (s.desc 2).active.arm = .aux) := by
  decide

/-- A stored command with a holdoff above its range, one on a busy channel, and one refused for each field. -/
theorem witness_ChannelSetStoresClampedSettings :
    State.reset.executes (0x21 :: ([chanByte 3, bindingCode (some .aux), Polarity.both.code]
        ++ leBytes 4 (65536#32).toNat ++ [21] ++ leBytes 2 (5#16).toNat ++ [flagByte true])) = true
      ∧ (State.reset.chanState 3 = .online ∧ ∀ g : Desc, (State.reset.desc g).running = false)
      ∧ (let s := gate .gateOpen (freqCopy 1) (context (some 500))
         (s.desc 2).running = true ∧ (0 : Chan) ∈ (s.desc 2).active.used
          ∧ s.executes (0x21 :: ([chanByte 0, bindingCode none, Polarity.both.code]
              ++ leBytes 4 (0#32).toNat ++ [0] ++ leBytes 2 (0#16).toNat ++ [flagByte false])) = true)
      ∧ State.reset.executes (0x21 :: [5, 0, 1, 0, 0, 0, 0, 0, 0, 0, 0]) = true
      ∧ State.reset.executes (0x21 :: [4, 6, 1, 0, 0, 0, 0, 0, 0, 0, 0]) = true
      ∧ State.reset.executes (0x21 :: [4, 5, 4, 0, 0, 0, 0, 0, 0, 0, 0]) = true
      ∧ State.reset.executes (0x21 :: [4, 5, 3, 0, 0, 0, 0, 0, 0, 0, 2]) = true := by decide

theorem witness_CalibrateChecksAndBegins :
    State.reset.executes [0x30, 0] = true ∧ ¬(1 ≤ (0 : Byte).toNat ∧ (0 : Byte).toNat ≤ 4)
      ∧ State.reset.executes [0x30, chanByte 3] = true ∧ State.reset.tb.state ≠ .run
      ∧ running.executes [0x30, chanByte 3] = true ∧ running.tb.state = .run ∧ running.cal = none
      ∧ running.chanState 3 ≠ .parked ∧ (∀ g : Desc, (running.desc g).running = false)
      ∧ (calibrating 0).executes [0x30, chanByte 0] = true ∧ (calibrating 0).cal ≠ none := by decide

/-- No calibration, one a hit before its last, and its deadline ahead of the counter. -/
theorem witness_CalibrationHitsCountAndTheDeadlineEnds :
    running.power = .ready ∧ running.cal = none
      ∧ (calibrating 65534).power = .ready ∧ (calibrating 65534).cal = some { chan := 1, deadline := 4000000 }
      ∧ (calibrating 65534).tb.state = .run ∧ (calibrating 65534).tb.ticked = true
      ∧ ((calibrating 65534).chan 1).attempt.hits + 1 < 65536
      ∧ (calibrating 65534).comesTo 4000000 ∧ (calibrating 65534).reaches 4000000 :=
  ⟨by decide, by decide, by decide, by decide, by decide, by decide, by decide,
    .inr (State.passesNothing_of_all (by decide +kernel)), .inr (State.passesNothing_of_all (by decide +kernel))⟩

theorem witness_LastHitJudgesTheHistogram :
    (calibrating 65535).power = .ready ∧ (calibrating 65535).cal = some { chan := 1, deadline := 4000000 }
      ∧ (calibrating 65535).tb.state = .run ∧ (calibrating 65535).tb.ticked = true ∧ (calibrating 65535).comesTo 3999999
      ∧ ((calibrating 65535).chan 1).attempt.hits = 65535 :=
  ⟨by decide, by decide, by decide, by decide, .inr (State.passesNothing_of_all (by decide +kernel)), by decide⟩

theorem witness_BuiltTableKeepsTheLaw : (160 : Nat) ≤ 160 ∧ (159 : Bin).val < 160 := by decide

/-- A copy GATE WRITE can store, a pending commit, raw bytes that are clamped, stored as 0 or kept for a FREQ, a TOTALIZE and
a RATIO command, and one command for each refusal, its field one above the range, and for function NONE. -/
theorem witness_GateWriteStoresTheClampedCopy :
    ((freqCopy 100000000).stagedForm ∧ GateCopy.empty.stagedForm
      ∧ State.reset.executes (0x40 :: eightByte 2 :: (freqCopy 100000000).bytes) = true
      ∧ (State.reset.desc 2).commitPending = false
      ∧ (let s := withDesc State.reset { descIn .gateOpen (freqCopy 1) with commitPending := true }
         s.executes (0x40 :: eightByte 2 :: (freqCopy 1).bytes) = true ∧ (s.desc 2).commitPending = true)
      ∧ (3 : Byte).toNat ≤ 3
      ∧ State.reset.executes (0x40 :: ([eightByte 2, 1, chanByte 0, 0, 1] ++ leBytes 8 (0#64).toNat
          ++ [0, 0, 0, 16, eightByte 7, 0, 0, 0])) = true
      ∧ State.reset.executes (0x40 :: ([eightByte 2, Fn.totalize.code, chanByte 0, 9, 3] ++ leBytes 8 (5#64).toNat
          ++ [1, 9, 1, 0xFF, eightByte 7, 1, 2, 3])) = true
      ∧ (Fn.ratio ≠ .none ∧ (4 : Byte).toNat ≤ 4 ∧ (2 : Byte).toNat ≤ 3 ∧ (7 : Byte).toNat ≤ 7
        ∧ State.reset.executes (0x40 :: ([eightByte 2, Fn.ratio.code, chanByte 3, 4, 2]
          ++ leBytes 8 (1099511627776#64).toNat ++ [2, 7, 0, 15, eightByte 0, 0, 0, 0])) = true))
    ∧ (∀ args ∈ ([
        [8, 1, 1, 0, 1, 1, 0, 0, 0, 0, 0, 0, 0, 0, 0, 0, 0, 0, 0, 0, 0],
        [7, 6, 1, 0, 1, 1, 0, 0, 0, 0, 0, 0, 0, 0, 0, 0, 0, 0, 0, 0, 0],
        [7, 0, 9, 9, 9, 9, 0, 0, 0, 0, 0, 0, 0, 9, 9, 9, 9, 9, 0, 0, 0],
        [7, 1, 5, 0, 1, 1, 0, 0, 0, 0, 0, 0, 0, 0, 0, 0, 0, 0, 0, 0, 0],
        [7, 3, 4, 5, 0, 1, 0, 0, 0, 0, 0, 0, 0, 0, 0, 0, 0, 0, 0, 0, 0],
        [7, 1, 4, 5, 4, 1, 0, 0, 0, 0, 0, 0, 0, 0, 0, 0, 0, 0, 0, 0, 0],
        [7, 1, 4, 0, 3, 1, 0, 0, 0, 0, 0, 0, 0, 3, 0, 0, 0, 0, 0, 0, 0],
        [7, 1, 4, 0, 3, 1, 0, 0, 0, 0, 0, 0, 0, 2, 8, 0, 0, 0, 0, 0, 0],
        [7, 1, 4, 0, 3, 1, 0, 0, 0, 0, 0, 0, 0, 1, 8, 2, 0, 0, 0, 0, 0],
        [7, 1, 4, 0, 3, 1, 0, 0, 0, 0, 0, 0, 0, 1, 8, 1, 0, 8, 0, 0, 0]] : List (List Byte)),
        args.length = 21 ∧ State.reset.executes (0x40 :: args) = true) := by
  refine ⟨⟨.inr ⟨by decide, by decide, by decide, ⟨by decide, by decide⟩, ?_⟩, .inl rfl, by decide, by decide, by decide,
    by decide, by decide, by decide, by decide⟩, by decide⟩
  intro e h
  cases h
  decide

/-- Copies that fail each check and one that passes all, in OFF, WAIT_ARM and OPEN. -/
theorem witness_GateCommitActsByState :
    State.reset.executes [0x41, eightByte 2] = true ∧ State.reset.executes [0x41, 8] = true
      ∧ ¬({ intervalCopy with secondary := none } : GateCopy).check1
      ∧ (intervalCopy.check1 ∧ ¬({ intervalCopy with mode := .aux } : GateCopy).check2)
      ∧ ((freqCopy 1).check1 ∧ (freqCopy 1).check2 ∧ ¬({ freqCopy 1 with arm := .chain 2 } : GateCopy).check3 2)
      ∧ (freqCopy 1).check3 2
      ∧ (withDesc running (descIn .waitArm (freqCopy 1))).executes [0x41, eightByte 2] = true
      ∧ running.armsAtOnce (freqCopy 1)
      ∧ (gate .closing (freqCopy 1) (context (some 500))).executes [0x41, eightByte 2] = true := by
  refine ⟨by decide, by decide, ?_, ⟨?_, ?_⟩, ⟨?_, .inl rfl, ?_⟩, ?_, by decide, ?_, by decide⟩
  · unfold GateCopy.check1; decide
  · unfold GateCopy.check1; decide
  · exact fun h => absurd (show ((3 : Byte) = 0) from h) (by decide)
  · unfold GateCopy.check1; decide
  · unfold GateCopy.check3; decide
  · unfold GateCopy.check3; decide
  · unfold State.armsAtOnce; decide

theorem witness_GateEnableEntersWaitArm :
    State.reset.executes [0x42, 8] = true ∧ State.reset.executes [0x42, eightByte 2] = true ∧ (State.reset.desc 2).active.fn = .none
      ∧ (withDesc running (descIn .armed (freqCopy 1))).executes [0x42, eightByte 2] = true
      ∧ (let s := withDesc running (descIn .off (totalizeCopy 1))
         s.executes [0x42, eightByte 2] = true ∧ (s.desc 2).state = .off ∧ (s.desc 2).active.fn = .totalize
          ∧ (s.desc 2).active.mode = .time 1 ∧ s.armsAtOnce (s.desc 2).active) := by
  unfold State.armsAtOnce
  decide

/-- A bad mode byte, and FINISH at a gate of each kind. -/
theorem witness_GateStopFinishFollowsItsTable :
    ((3 : Byte) ≠ 1 ∧ (3 : Byte) ≠ 2 ∧ State.reset.executes [0x43, eightByte 2, 3] = true)
      ∧ State.reset.executes [0x43, 8, 1] = true
      ∧ State.reset.executes [0x43, eightByte 2, 1] = true ∧ (State.reset.desc 2).state = .off
      ∧ (gate .gateOpen (freqCopy 1) (context (some 500))).executes [0x43, eightByte 2, 1] = true
      ∧ (gate .gateOpen { freqCopy 1 with mode := .count 3 } (context none)).executes [0x43, eightByte 2, 1] = true
      ∧ (gate .gateOpen (totalizeCopy 1) (sampledContext (some 500))).executes [0x43, eightByte 2, 1] = true
      ∧ (gate .gateOpen intervalCopy (context none)).executes [0x43, eightByte 2, 1] = true
      ∧ (gate .closing (freqCopy 1) (context (some 500))).executes [0x43, eightByte 2, 1] = true
      ∧ ((gate .closing (freqCopy 1) (context (some 500))).modDesc 2 (fun d => { d with lastGate := true })).executes
          [0x43, eightByte 2, 1] = true := by decide

theorem witness_GateStopAbortEndsTheRun :
    (gate .gateOpen (freqCopy 1) (context (some 500))).executes [0x43, eightByte 2, 2] = true
      ∧ State.reset.executes [0x43, 8, 2] = true := by decide

/-- C_end at the present count and after it, for both kinds of gate, and a TOTALIZE gate whose C_end the counter has passed. -/
theorem witness_NominalEndClosesOrSamples :
    let s := gate .gateOpen (freqCopy 1) (context (some 500))
    let u := gate .gateOpen (totalizeCopy 1) (sampledContext (some 501))
    (s.power = .ready ∧ s.tb.state = .run ∧ (s.desc 2).state = .gateOpen ∧ (s.desc 2).closeEvent = none
      ∧ (s.desc 2).ctx = some (context (some 500)) ∧ (context (some 500)).cEnd = some 500
      ∧ (s.desc 2).active.fn = .freq) ∧ s.reaches 500
    ∧ (u.power = .ready ∧ u.tb.state = .run ∧ (u.desc 2).state = .gateOpen ∧ (u.desc 2).closeEvent = none
      ∧ (u.desc 2).ctx = some (sampledContext (some 501)) ∧ (u.desc 2).active.fn = .totalize) ∧ u.reaches 501
    ∧ (let v := gate .gateOpen (totalizeCopy 1) (sampledContext (some 400))
       (v.desc 2).ctx = some (sampledContext (some 400)) ∧ (v.tb.coarse - 400).toNat < 2 ^ 53 ∧ v.tb.coarse ≠ 400
        ∧ (v.desc 2).deferred = []) :=
  ⟨by decide, .inl (by decide), by decide, .inr (State.passesNothing_of_all (by decide +kernel)), by decide⟩

/-- A timeout in ARMED, one of an INTERVAL gate in OPEN, those of FREQ, PERIOD and RATIO gates with a last primary stamp of
an earlier tick, that of a RATIO gate with one of the present tick, and one the counter has passed. -/
theorem witness_TimeoutsPostOrTakeACloseEvent :
    (let s := withDesc (runningAt 500) { descIn .armed (freqCopy 1) with timeoutAt := some 500 }
     (s.power = .ready ∧ s.tb.state = .run ∧ (s.desc 2).state = .armed ∧ (s.desc 2).closeEvent = none
      ∧ (s.desc 2).timeoutAt = some 500) ∧ s.reaches 500)
    ∧ (let s := withDesc (runningAt 500)
        { descIn .gateOpen intervalCopy with ctx := some (context none), timeoutAt := some 501 }
       (s.power = .ready ∧ s.tb.state = .run ∧ (s.desc 2).state = .gateOpen ∧ (s.desc 2).closeEvent = none
      ∧ (s.desc 2).ctx = some (context none) ∧ (s.desc 2).timeoutAt = some 501
      ∧ (s.desc 2).active.fn = .interval) ∧ s.reaches 501)
    ∧ (∀ fn : Fn, fn = .freq ∨ fn = .period ∨ fn = .ratio →
       let k : GateCtx := { context none with last := some (stampAt 300 9, sample 300) }
       let s := withDesc (runningAt 500) { descIn .closing { freqCopy 1 with fn := fn, secondary := some 1 } with
         ctx := some k, timeoutAt := some 500 }
       (s.desc 2).state = .closing ∧ (s.desc 2).closeEvent = none ∧ (s.desc 2).ctx = some k
        ∧ (s.desc 2).timeoutAt = some 500 ∧ k.openStamp = some (stampAt 100 7)
        ∧ k.last = some (stampAt 300 9, sample 300) ∧ (sample 300).instant = (stampAt 300 9).coarse
        ∧ (s.tb.coarse - ((stampAt 300 9).coarse + 1)).toNat < 2 ^ 53)
    ∧ (let k : GateCtx := { context none with last := some (stampAt 500 9, sample 500) }
       let s := withDesc (runningAt 500) { descIn .closing { freqCopy 1 with fn := .ratio, secondary := some 1 } with
         ctx := some k, timeoutAt := some 500 }
       (s.desc 2).ctx = some k ∧ (s.desc 2).active.fn = .ratio ∧ k.last = some (stampAt 500 9, sample 500)
        ∧ (sample 500).instant = s.tb.coarse)
    ∧ (let s := withDesc (runningAt 500)
        { descIn .gateOpen intervalCopy with ctx := some (context none), timeoutAt := some 400 }
       (s.desc 2).timeoutAt = some 400 ∧ (s.tb.coarse - 400).toNat < 2 ^ 53 ∧ s.tb.coarse ≠ 400
        ∧ (s.desc 2).deferred = []) := by
  refine ⟨⟨by decide, .inl (by decide)⟩, ⟨by decide, .inr (State.passesNothing_of_all (by decide +kernel))⟩, ?_,
    by decide, by decide⟩
  rintro fn (rfl | rfl | rfl) <;> decide

/-- Records that wait at 500 for the tick 501: of TOTALIZE, of RATIO closed by a stamp, and NO_CLOSE of each other
function. -/
theorem witness_TotalizeRecordIsFormed :
    (let e : CloseEvent := { completion := .normal, stamp := none, sample := sample 500 }
     let s := withDesc (runningAt 500) { descIn .gateOpen (totalizeCopy 1) with
       ctx := some (sampledContext (some 500)), closeEvent := some e }
     (s.power = .ready ∧ s.tb.state = .run ∧ (s.desc 2).closeEvent = some e
      ∧ (s.desc 2).ctx = some (sampledContext (some 500)) ∧ (s.desc 2).active.primary = some 0
      ∧ (s.desc 2).active.fn = .totalize ∧ (s.desc 2).active.mode = .time 1
      ∧ (sampledContext (some 500)).openStamp = none) ∧ s.reaches (e.sample.instant + 1))
    ∧ (let e : CloseEvent := { completion := .normal, stamp := some (stampAt 500 9), sample := sample 500 }
       let s := withDesc (runningAt 501) { descIn .closing { freqCopy 1 with fn := .ratio, secondary := some 1 } with
         ctx := some (context (some 450)), closeEvent := some e }
       (s.desc 2).closeEvent = some e ∧ (s.desc 2).ctx = some (context (some 450)) ∧ (s.desc 2).active.fn = .ratio
        ∧ (context (some 450)).openStamp = some (stampAt 100 7) ∧ e.sample.instant = (stampAt 500 9).coarse
        ∧ (s.tb.coarse - (e.sample.instant + 1)).toNat < 2 ^ 53)
    ∧ (∀ fn : Fn, fn ≠ .totalize → fn ≠ .none →
       let e : CloseEvent := { completion := .noClose, stamp := none, sample := sample 500 }
       let s := withDesc (runningAt 501) { descIn .closing { freqCopy 1 with fn := fn, secondary := some 1 } with
         ctx := some (context none), closeEvent := some e }
       (s.desc 2).closeEvent = some e ∧ (s.desc 2).ctx = some (context none) ∧ (s.desc 2).active.fn = fn
        ∧ (context none).openStamp = some (stampAt 100 7)
        ∧ (s.tb.coarse - (e.sample.instant + 1)).toNat < 2 ^ 53) := by
  refine ⟨⟨by decide, .inr (State.passesNothing_of_all (by decide +kernel))⟩, by decide, ?_⟩
  intro fn h1 h2
  cases fn <;> first | exact absurd rfl h1 | exact absurd rfl h2 | decide

/-- A stamp that opens, one that becomes the last primary stamp of each kind of gate, one that waits behind a close
event, one of a channel not used, and secondary stamps of RATIO in each state and of INTERVAL in ARMED. -/
theorem witness_PrimaryStampOpensTheGate :
    (let s := withDesc (runningAt 500) (descIn .armed intervalCopy)
     ((s.desc 2).state = .armed ∧ (s.desc 2).closeEvent = none
      ∧ (s.desc 2).active.primary = some ({ stampAt 500 9 with chan := 2 } : Stamp).chan
      ∧ (sample 500).instant = s.tb.coarse ∧ (s.desc 2).active.fn ≠ .none ∧ (s.desc 2).active.fn ≠ .totalize)
      ∧ (∀ len, (s.desc 2).active.mode = .time len → 1 ≤ len ∧ len ≤ 100000000))
    ∧ (let s := gate .gateOpen (freqCopy 1) (context (some 500))
       (s.desc 2).state = .gateOpen ∧ (s.desc 2).active.primary = some (stampAt 499 9).chan
        ∧ (s.desc 2).active.mode = .time 1 ∧ (context (some 500)).cEnd = some 500
        ∧ ¬((stampAt 499 9).coarse - 500).toNat < 2 ^ 53)
    ∧ (let s := gate .gateOpen { freqCopy 1 with mode := .count 3 } (context none)
       (s.desc 2).active.mode = .count 3 ∧ (context none).endReached = false
        ∧ ((stampAt 499 9).n - (stampAt 100 7).n).toNat < 3)
    ∧ (let s := gate .gateOpen (totalizeCopy 1) (sampledContext (some 500))
       (s.desc 2).state = .gateOpen ∧ (s.desc 2).active.fn = .totalize
        ∧ (s.desc 2).active.primary = some (stampAt 499 9).chan)
    ∧ (let s := withDesc (runningAt 500) { descIn .gateOpen (totalizeCopy 1) with
         ctx := some (sampledContext (some 500))
         closeEvent := some { completion := .normal, stamp := none, sample := sample 500 } }
       (s.desc 2).closeEvent ≠ none ∧ (stampAt 500 9).chan ∈ (s.desc 2).active.used)
    ∧ (stampAt 500 9).chan ∉ intervalCopy.used
    ∧ (∀ st : DState, let s := gate st { freqCopy 1 with fn := .ratio, secondary := some 1 } (context (some 500))
       (s.desc 2).closeEvent = none ∧ (s.desc 2).active.primary ≠ some ({ stampAt 500 9 with chan := 1 } : Stamp).chan
        ∧ (s.desc 2).active.fn ≠ .interval ∧ (1 : Chan) ∈ (s.desc 2).active.used ∧ (s.desc 2).state = st)
    ∧ (let s := withDesc (runningAt 500) (descIn .armed intervalCopy)
       (s.desc 2).active.primary ≠ some ({ stampAt 500 9 with chan := 3 } : Stamp).chan ∧ (s.desc 2).state = .armed) := by
  refine ⟨⟨by decide, ?_⟩, by decide, by decide, by decide, by decide, by decide,
    fun st => by cases st <;> decide, by decide⟩
  intro len h
  exact absurd h (by simp [withDesc, descIn, Descriptor.idle, State.modDesc, State.desc, intervalCopy])

/-- A closing stamp at C_end in OPEN, after a FINISH, at the N-th edge and in CLOSING, and the stop stamp of INTERVAL. -/
theorem witness_ClosingStampPublishesAndReopens :
    (∀ fn : Fn, let s := gate .gateOpen { freqCopy 1 with fn := fn } (context (some 500))
     (s.desc 2).closeEvent = none ∧ (s.desc 2).ctx = some (context (some 500))
      ∧ (context (some 500)).openStamp = some (stampAt 100 7) ∧ (stampAt 500 9).coarse = s.tb.coarse
      ∧ (sample 500).instant = s.tb.coarse ∧ (s.desc 2).active.primary = some (stampAt 500 9).chan
      ∧ (s.desc 2).state = .gateOpen ∧ (s.desc 2).active.mode = .time 1 ∧ (context (some 500)).cEnd = some 500
      ∧ ((stampAt 500 9).coarse - 500).toNat < 2 ^ 53 ∧ (s.desc 2).active.fn = fn)
    ∧ (let s := gate .gateOpen { freqCopy 1 with mode := .count 2 } (context none)
       (s.desc 2).state = .gateOpen ∧ (s.desc 2).active.mode = .count 2
        ∧ 2 ≤ ((stampAt 500 9).n - (stampAt 100 7).n).toNat)
    ∧ (let s := gate .gateOpen { freqCopy 1 with mode := .count 9 } { context none with endReached := true }
       (s.desc 2).ctx = some { context none with endReached := true } ∧ (s.desc 2).active.mode = .count 9)
    ∧ (let s := gate .closing (freqCopy 1) (context (some 500))
       (s.desc 2).state = .closing ∧ (s.desc 2).active.primary = some (stampAt 500 9).chan)
    ∧ (let s := gate .gateOpen intervalCopy (context none)
       (s.desc 2).state = .gateOpen ∧ (s.desc 2).active.fn = .interval
        ∧ (s.desc 2).active.secondary = some ({ stampAt 500 9 with chan := 3 } : Stamp).chan) := by
  refine ⟨?_, by decide, by decide, by decide, by decide⟩
  intro fn
  cases fn <;> decide

/-- A record of descriptor 2 with value 7. -/
def record : Record :=
  { desc := 2, gateNumber := 1, fn := .freq, completion := .normal, flags := QFlags.clear, overrange := false
    tOpen := 0, tClose := 0, nOpen := 0, nClose := 0, secondaryDelta := none, value := some 7 }

theorem witness_PublishPresentsOrWaits :
    (State.reset.slot 5).held = false
      ∧ ((State.reset.modSlot 5 (fun sl => { sl with held := true })).slot 5).held = true := by decide

/-- Eligible and ineligible records, one without a value, statistics of the record's function at their largest count, sound
ones, and a negative and a positive sum. -/
theorem witness_StatisticsTakeRecordsAndGiveTheMean :
    record.value = some 7 ∧ record.completion = .normal ∧ record.overrange = false
      ∧ ({ record with overrange := true } : Record).overrange = true
      ∧ ({ record with value := none, completion := .noClose } : Record).value = none
      ∧ 0 < ({ fn := .interval, count := 2, minimum := some (-7), maximum := some 0, sum := -7 } : Stats).count
      ∧ 0 < ({ fn := .interval, count := 2, minimum := some 0, maximum := some 7, sum := 7 } : Stats).count
      ∧ record.fn ≠ Stats.empty.fn ∧ Stats.empty.sound
      ∧ ({ fn := .freq, count := 4294967295, minimum := some 7, maximum := some 7, sum := 30064771065 } : Stats).sound := by
  refine ⟨by decide, by decide, by decide, by decide, by decide, by decide, by decide, by decide,
    ⟨by decide, by decide, fun h => absurd h (by decide)⟩,
    ⟨by decide, by decide, fun _ => ⟨7, 7, rfl, rfl, by decide, by decide⟩⟩⟩

theorem witness_SlotCommandsChangeWhatTheyName :
    State.reset.executes [0x50, 8, 0] = true ∧ State.reset.executes [0x50, 7, 2] = true
      ∧ State.reset.executes [0x50, 7, 1] = true ∧ State.reset.executes [0x51, 0xFF, 1] = true
      ∧ State.reset.executes [0x51, 0xFF, 0] = true ∧ State.reset.executes [0x53, 0xFF, 1] = true
      ∧ State.reset.executes [0x53, 0xFF, 0] = true := by decide

theorem witness_SlotReleasePresentsPendingRecords :
    let s := State.reset.modSlot 7 (fun sl => { sl with held := true, waiting := some record })
    s.executes [0x52, 0x80, 0] = true ∧ s.executes [0x52, 0x80, 1] = true ∧ (0x80 : Byte).getLsbD 7 = true
      ∧ (s.slot 7).held = true ∧ (s.slot 7).waiting.isSome = true ∧ s.link.mask.result = true
      ∧ s.link.mask.slots.getLsbD 7 = true ∧ (∀ e ∈ s.link.noticeQueue, ∀ k : SlotId, e.key ≠ .result k) := by decide

/-- Drop counts of 0, 1 and the largest, with an empty FIFO. -/
theorem witness_StreamTakesAndAccountsForStamps :
    StreamUnit.reset.fifo.length ≤ 4096 ∧ StreamUnit.reset.drops[(0 : Chan)] = 0
      ∧ 0 < ({ StreamUnit.reset with drops := #v[1, 0, 0, 0] } : StreamUnit).drops[(0 : Chan)]
      ∧ ({ StreamUnit.reset with drops := #v[4294967294, 0, 0, 0] } : StreamUnit).drops[(stampAt 1 1).chan] < 4294967295 := by
  decide

theorem witness_StreamCommandsSetAndClear :
    State.reset.executes [0x60, 16] = true ∧ State.reset.executes [0x60, 15] = true
      ∧ State.reset.executes [0x61] = true := by decide

/-- A posting the mask admits, with and without an entry of its key, one it does not admit, and NOTICE MASK. -/
theorem witness_NoticesArePostedAndMasked :
    (let s := State.reset.modLink (fun l => { l with mask := { Mask.all with advise := false, slots := 0x7F } })
     s.link.mask.advise = false ∧ (s.link.mask.result && s.link.mask.slots.getLsbD 7) = false)
    ∧ State.reset.link.mask.admits (.cal 1) = true ∧ (∀ e ∈ State.reset.link.noticeQueue, e.key ≠ .cal 1)
      ∧ ((State.reset.post (.cal 1)).link.noticeQueue = [] ++ { key := .cal 1, postings := 1 } :: [])
      ∧ (State.reset.modLink (fun l => { l with mask := { Mask.all with cal := false } })).link.mask.admits (.cal 1) = false
      ∧ State.reset.executes [0x70, 0xFF, 0xFF, 1] = true ∧ State.reset.executes [0x70, 0xFF, 0xFF, 0] = true := by
  decide

/-- A receiver that looks for a start bit and one that waits for mark; a frame of the longest payload, one with a CRC
field that does not match, one of 1,041 bytes, a noise byte whose candidate is too long, and a corrupted longer frame. -/
theorem witness_WellFormedFrameIsTaken :
    (State.reset.power = .ready ∧ State.reset.lnkclk = true ∧ State.reset.link.rxLine = .looking
      ∧ State.reset.link.rxBuffer = [])
    ∧ (let s := State.reset.modLink (fun l => { l with rxLine := .awaitMark })
       0 < 1 ∧ ∀ samples, s.link.rxLine ≠ .inByte samples)
    ∧ (List.replicate 1040 (0 : Byte)).length ≤ 1040
    ∧ (leValue [0, 0] ≠ (crc (frameBody 1 [0x11])).toNat ∧ (0x5B : Byte) ∉ frameBody 1 [0x11])
    ∧ 1040 < leValue [0x11, 0x04]
    ∧ 1040 < (1 : Byte).toNat + 256 * ((List.replicate 5 (0 : Byte)).length % 256)
    ∧ ((frameBytes 1 [0x11]).length ≤ 1040 ∧ leValue [0, 0] ≠ (crc (frameBody 1 (frameBytes 1 [0x11]))).toNat
      ∧ (1 : Byte) ≠ 0x5B ∧ (0x5B : Byte) ∉ leBytes 2 (frameBytes 1 [0x11]).length) := by
  refine ⟨by decide, ⟨by decide, ?_⟩, by decide +kernel, by decide +kernel, by decide, by decide, by decide +kernel⟩
  intro samples h
  cases h

/-- A candidate with no SYNC behind its first byte; and, behind one, a byte that is not SYNC, candidates with a late byte in
the header and in the body, with too few bytes in either, with a length above 1,040, with a CRC field that does not agree,
and a whole frame. -/
theorem witness_ReceiveGapTruncatesTheCandidate :
    (let byte := fun (v : Byte) => ({ val := v, late := false } : RxByte)
     let late : RxByte := { val := 1, late := true }
     State.reset.link.rxGap = false ∧ (byte 7).val ≠ 0x5B ∧ (byte 0x5B).val = 0x5B
      ∧ late ∈ [byte 1, late].take 3 ∧ (∀ x ∈ [byte 1, byte 0], x.late ≠ true)
      ∧ 1040 < leValue [(byte 0x11).val, (byte 4).val]
      ∧ (leValue [(byte 1).val, (byte 0).val] = 1 ∧ late ∈ [byte 0x11, late].take (1 + 2))
      ∧ ([byte 0x11, byte 0].length < 1 + 2)
      ∧ leValue [(0 : Byte), 0] ≠ (crc [0x01, 1, 0, 0x11]).toNat
      ∧ (frameBytes 0x01 [0x11]).take 4 = [0x5B, 0x01, 1, 0]
      ∧ (frameBytes 0x01 [0x11]).drop 4 = 0x11 :: leBytes 2 (crc [0x01, 1, 0, 0x11]).toNat
      ∧ leValue (leBytes 2 (crc [0x01, 1, 0, 0x11]).toNat) = (crc [0x01, 1, 0, 0x11]).toNat)
    ∧ let s := State.reset.modLink (fun l => { l with
      rxBuffer := [{ val := 0x5B, late := false }, { val := 1, late := false }] })
    s.power = .ready ∧ State.reset.link.rxBuffer = []
      ∧ s.link.rxBuffer = { val := 0x5B, late := false } :: [{ val := 1, late := false }] ∧ s.link.rxGap = false
      ∧ (∀ x ∈ [({ val := 1, late := false } : RxByte)], x.val ≠ 0x5B) := by decide +kernel

/-- A stopped LNKCLK with a waiting command, receivers that look for a start bit and that wait for mark, and 39 samples of a
byte whose stop bit is at space. -/
theorem witness_LineCodesBytesAndStopsWithItsClock :
    (let s : State := { State.reset.modLink (fun l => { l with commandQueue := [[0x11]] }) with lnkclk := false }
     s.lnkclk = false ∧ s.link.commandQueue.head? = some [0x11])
    ∧ (State.reset.power = .ready ∧ State.reset.lnkclk = true ∧ State.reset.link.rxLine = .looking
      ∧ State.reset.link.rxBuffer = [])
    ∧ (State.reset.modLink (fun l => { l with rxLine := .awaitMark })).link.rxLine = .awaitMark
    ∧ (let samples : Vector Bool 39 := Vector.replicate 39 false
       samples[0] = false ∧ (∀ k : Fin 8, (0 : Byte).getLsbD k.val = samples[4 * (k.val + 1) + 2])
        ∧ samples[38] = false) := by decide

/-- A busy transmitter, and a free one with a reply, with a notice and with an entry. -/
theorem witness_ArbiterServesReplyNoticeStream :
    (State.reset.modLink (fun l => { l with tx := some { kind := 2, payload := [], restart := none } })).link.tx ≠ none
      ∧ (State.reset.power = .ready ∧ State.reset.lnkclk = true ∧ State.reset.link.tx = none)
      ∧ (State.reset.reply 0x11 (Answer.ack [])).link.replyQueue ≠ []
      ∧ (State.reset.link.replyQueue = [] ∧ (State.reset.post .timebase).link.noticeQueue ≠ [])
      ∧ (State.reset.link.noticeQueue = []
        ∧ (State.reset.modStream (fun u => { u with fifo := [.gap 0 1] })).stream.fifo ≠ []) := by decide

/-- An executed command, one of a wrong length, one of an unknown code, and an empty payload. -/
theorem witness_ExecutedCommandPlacesOneReply :
    (Instr.tbStart []).payload = some [0x11] ∧ State.reset.executes [0x11] = true
      ∧ (Instr.tbStart [1] = decodeCommand (0x11 :: [1]) ∧ argLength 0x11 = some 0 ∧ [(1 : Byte)].length ≠ 0
        ∧ State.reset.executes (0x11 :: [1]) = true)
      ∧ (argLength 0x99 = none ∧ State.reset.executes (0x99 :: [1]) = true) ∧ State.reset.executes [] = true := by decide

/-- A head command behind each cause of waiting, and a frame that finds four commands waiting. -/
theorem witness_CommandWaitsOrOverruns :
    (Instr.tbStart []).payload = some [0x11]
      ∧ (let s := State.reset.modLink (fun l => { l with commandQueue := [[0x11]], restart := some .full })
         s.link.commandQueue.head? = some [0x11] ∧ s.canExecute [0x11] = false)
      ∧ (Instr.gateCommit [2]).payload = some [0x41, eightByte 2]
      ∧ (let waiting : State := State.reset.modLink (fun l => { l with commandQueue := [[0x41, eightByte 2]] })
         let r : Reply := { code := 1, nak := none, field := 0, number := 1, data := [], restart := none }
         waiting.canExecute [0x41, eightByte 2] = true
          ∧ ({ waiting with power := .held } : State).canExecute [0x41, eightByte 2] = false
          ∧ ({ waiting with lnkclk := false } : State).canExecute [0x41, eightByte 2] = false
          ∧ (waiting.modLink (fun l => { l with replyQueue := List.replicate 7 r })).canExecute [0x41, eightByte 2] = true
          ∧ (waiting.modLink (fun l => { l with replyQueue := List.replicate 8 r })).canExecute [0x41, eightByte 2] = false
          ∧ (waiting.modDesc 2 (fun d => { d with
              closeEvent := some { completion := .normal, stamp := none, sample := sample 500 } })).canExecute
              [0x41, eightByte 2] = false)
      ∧ (let s := State.reset.modLink (fun l => { l with commandQueue := [[0x01], [0x01], [0x01], [0x01]] })
         s.link.commandQueue.head? ≠ some [0x11] ∧ s.link.commandQueue.length = 4 ∧ s.power = .ready ∧ s.lnkclk = true
          ∧ s.link.rxLine = .looking ∧ s.link.rxBuffer = []) := by decide

theorem witness_IdentifyReportsThePart : State.reset.executes [0x01] = true := by decide

theorem witness_ReadsReportAndChangeNothing :
    State.reset.executes [0x22, 0] = true ∧ State.reset.executes [0x22, 4] = true
      ∧ State.reset.executes [0x31, 5] = true ∧ State.reset.executes [0x31, 1] = true
      ∧ State.reset.executes [0x44, 8] = true ∧ State.reset.executes [0x44, 7] = true
      ∧ State.reset.executes [0x02, 2] = true ∧ State.reset.executes [0x02, 1] = true
      ∧ (4 : Byte).toNat = (3 : Chan).val + 1 ∧ (7 : Byte).toNat = (7 : Desc).val := by decide

theorem witness_RestartWaitsForItsAck :
    State.reset.executes [0x03, 2] = true ∧ State.reset.executes [0x03, 1] = true
      ∧ State.reset.executes [0x03, 0] = true := by decide

/-- No frame on the line, a frame without a restart, and the ACK of each kind of RESTART. -/
theorem witness_TransmitEndFreesAndRestarts :
    State.reset.power = .ready ∧ State.reset.lnkclk = true ∧ State.reset.link.tx = none
      ∧ (∀ r : Option RestartKind,
          (State.reset.modLink (fun l => { l with tx := some { kind := 2, payload := [], restart := r } })).link.tx
            = some { kind := 2, payload := [], restart := r }) := ⟨rfl, rfl, rfl, fun _ => rfl⟩

theorem witness_LinkBreakRestartsAtOnce :
    State.reset.power = .ready ∧ State.reset.link.rxLine ≠ .broken
      ∧ (State.reset.modLink (fun l => { l with rxLine := .broken })).link.rxLine = .broken := by decide

/-- One row for each condition: GATE STOP ABORT of descriptor 7, and RESTART with kind 1 and 2. -/
theorem witness_PayloadAndRowAgree :
    (Instr.gateStopAbort [7, 2]).payload = some [0x43, 7, 2] ∧ (Instr.restartMeasure [1]).payload = some [0x03, 1]
      ∧ (Instr.restartFull [2]).payload = some [0x03, 2] ∧ ([1] : List Byte) ≠ [2] ∧ argLength 0x44 = some 1
      ∧ argLength 0x45 = none := by decide

/-- The invariants' premises, each with a step: an idle step from RUN. -/
theorem witness_StepKeepsTimebaseSound :
    running.timebaseSound ∧ step running = .next (running.modTb (fun tb => { tb with coarse := tb.coarse + 1 })) := by
  constructor
  · unfold State.timebaseSound
    decide
  · show Host.Outcome.next running.tick = _
    have h : running.comesTo 1 := .inr (State.passesNothing_of_all (by decide +kernel))
    have hc : running.tb.counting = true := rfl
    have h1 : running.tb.coarse + 1 = 1 := rfl
    unfold State.tick
    rw [if_pos hc, h1, h.advanceTo]
    rfl

theorem running_chan (c : Chan) : running.chan c = Channel.reset c := by fin_cases c <;> rfl

theorem witness_StepKeepsCalibrationSound : running.calSound := by
  intro c
  rw [running_chan]
  have hc : running.calibrates c = false := rfl
  refine ⟨⟨⟨?_, ?_, ?_⟩, ⟨?_, Nat.zero_le _, Nat.zero_le _, ?_, ?_⟩, Nat.zero_le _, ?_, ?_⟩, ?_, ?_⟩
  · intro b
    show defaultTable[b] ≤ 1023
    simp only [defaultTable, binVector, defaultEntry, Fin.getElem_fin, Vector.getElem_mk, List.getElem_toArray,
      List.getElem_map, List.getElem_range]
    split <;> omega
  · intro a b h
    show defaultTable[a] ≤ defaultTable[b]
    have : a.val ≤ b.val := h
    simp only [defaultTable, binVector, defaultEntry, Fin.getElem_fin, Vector.getElem_mk, List.getElem_toArray,
      List.getElem_map, List.getElem_range]
    split <;> split <;> omega
  · intro b h
    show defaultTable[b] = 1023
    have h' : ¬b.val < 128 := Nat.not_lt.mpr h
    simp [defaultTable, binVector, defaultEntry, h']
  · show emptyHistogram.toList.sum = 0
    simp [emptyHistogram, binVector]
  · intro b h
    exfalso
    have h' : 0 < emptyHistogram[b] := h
    simp only [emptyHistogram, binVector, Fin.getElem_fin, Vector.getElem_mk, List.getElem_toArray,
      List.getElem_map] at h'
    omega
  · intro b h
    exact absurd h (Nat.succ_ne_zero _)
  · intro h
    cases h
  · exact fun _ => ⟨rfl, rfl⟩
  · rw [hc]
    exact ⟨fun h => absurd h (fun e => CalOutcome.noConfusion e), fun h => absurd h (by decide)⟩
  · intro h
    rw [hc] at h
    cases h

/-- A gate in progress on an ONLINE channel in RUN. -/
theorem witness_StepKeepsEngineSound :
    (gate .gateOpen (freqCopy 1) (context (some 500))).engineSound := by
  unfold State.engineSound Descriptor.sound
  decide

/-- A held slot with a pending record, and a FIFO with a GAP and its STAMP. -/
theorem witness_StepKeepsStoreAndStreamSound :
    (∀ k : SlotId, ((State.reset.modSlot 7 (fun sl => { sl with held := true, waiting := some record })).slot k).sound)
      ∧ ({ StreamUnit.reset with fifo := [.gap 0 2, .stamp 0 805 9 QFlags.clear] } : StreamUnit).sound := by
  refine ⟨?_, by decide, by decide, ?_, by decide⟩
  · intro k
    have hs : Stats.empty.sound := ⟨by decide, by decide, fun h => absurd h (by decide)⟩
    fin_cases k <;> exact ⟨by decide, hs⟩
  · intro e he
    simp only [List.mem_cons, List.not_mem_nil, or_false] at he
    rcases he with rfl | rfl
    · exact ⟨by decide, by decide⟩
    · trivial

/-- A link with a command, a notice and a candidate. -/
theorem witness_StepKeepsLinkSound :
    ({ Link.reset with
        commandQueue := [[0x11]], noticeQueue := [{ key := .cal 1, postings := 1 }]
        rxBuffer := [{ val := 0x5B, late := false }] } : Link).sound := by
  refine ⟨by decide, by decide, by decide, by decide, by decide, by decide, by decide, by decide, ?_, ?_⟩
  · intro b hb
    cases hb
    rfl
  · exact fun _ => ⟨by decide, by intro f hf; cases hf⟩

end Sys2Proof.Tests
end

section
/-!
The composition of a timestamp (R47). The model composes it with 64-bit words; `BitVec.ofInt 64` carries sums and
differences of exact integers to those words, so reducing once at the end gives the same word.
-/

namespace Sys2Proof.Machine

/-- The word composition is the image of the exact one: no operation of it sees more than the value modulo 2^64. -/
theorem composeTime_eq_ofInt (c : Coarse) (fine : Nat) (skew : BitVec 16) :
    composeTime c fine skew = BitVec.ofInt 64 ((c.toNat : Int) * 1024 - (fine : Int) + skew.toInt) := by
  have hcoarse : instantTime c = BitVec.ofInt 64 ((c.toNat : Int) * 1024) :=
    (BitVec.ofInt_natCast 64 (c.toNat * 1024)).symm
  have hfine : BitVec.ofNat 64 fine = BitVec.ofInt 64 (fine : Int) := (BitVec.ofInt_natCast 64 fine).symm
  have hskew : skew.signExtend 64 = BitVec.ofInt 64 skew.toInt := rfl
  rw [composeTime, hcoarse, hfine, hskew, BitVec.sub_eq_add_neg, ← BitVec.ofInt_neg, ← BitVec.ofInt_add,
    ← BitVec.ofInt_add, ← Int.sub_eq_add_neg]

/-- Composing on words is composing on exact integers and reducing modulo 2^64 once, at the end (R47). -/
theorem composeTime_toNat (c : Coarse) (fine : Nat) (skew : BitVec 16) :
    ((composeTime c fine skew).toNat : Int) = ((c.toNat : Int) * 1024 - (fine : Int) + skew.toInt) % 2 ^ 64 := by
  rw [composeTime_eq_ofInt, BitVec.toNat_ofInt]
  exact Int.toNat_of_nonneg (Int.emod_nonneg _ (by decide))

/-- The timestamp of a stamp is composed from the closing tick, the table's entry at the raw bin and the stored skew,
all of the state at the stamp (R44, R45). -/
theorem State.stampOf_t (s : State) (c : Chan) (tick : Coarse) (b : Bin) :
    (s.stampOf c tick b).t = composeTime tick (s.chan c).table[b] (s.chan c).set.skew := rfl

/-- Settles O15: the word composition of `State.stampOf` is the exact one reduced modulo 2^64. -/
theorem timestampIsComposedExactly : Obligations.TimestampIsComposedExactly := by
  intro s c tick b
  rw [State.stampOf_t]
  exact composeTime_toNat tick (s.chan c).table[b] (s.chan c).set.skew

end Sys2Proof.Machine
end

section
/-!
The INTERVAL value (R104, R117). Each rounding of the model is bounded once, on both sides, for every numerator and every
positive divisor; the value of R117 is the divisor 32.
-/

namespace Sys2Proof.Machine

/-- The rounded quotient is the one integer within a half of the exact one, an exact half lying below it. -/
theorem roundHalfUp_bounds (num : Nat) {den : Nat} (hden : 0 < den) :
    2 * den * roundHalfUp num den ≤ 2 * num + den ∧ 2 * num + den < 2 * den * (roundHalfUp num den + 1) :=
  ⟨Nat.mul_div_le _ _, Nat.lt_mul_div_succ _ (by omega)⟩

/-- The same over the integers, for a numerator given as an integer that is not negative. -/
theorem roundHalfUp_toNat_bounds {num : Int} (hnum : 0 ≤ num) {den : Nat} (hden : 0 < den) :
    2 * (den : Int) * (roundHalfUp num.toNat den : Int) ≤ 2 * num + den
      ∧ 2 * num + den < 2 * (den : Int) * ((roundHalfUp num.toNat den : Int) + 1) := by
  obtain ⟨hle, hlt⟩ := roundHalfUp_bounds num.toNat hden
  rw [← Int.toNat_of_nonneg hnum]
  exact ⟨by exact_mod_cast hle, by exact_mod_cast hlt⟩

/-- A quotient that is not negative is rounded half up. -/
theorem roundHalfAway_bounds_of_nonneg {num : Int} (hnum : 0 ≤ num) {den : Nat} (hden : 0 < den) :
    2 * (den : Int) * roundHalfAway num den ≤ 2 * num + den
      ∧ 2 * num + den < 2 * (den : Int) * (roundHalfAway num den + 1) := by
  rw [roundHalfAway, if_pos hnum]
  exact roundHalfUp_toNat_bounds hnum hden

/-- A negative quotient is rounded half down: its magnitude is rounded half up, and negation turns the bounds round. -/
theorem roundHalfAway_bounds_of_neg {num : Int} (hnum : num < 0) {den : Nat} (hden : 0 < den) :
    2 * (den : Int) * (roundHalfAway num den - 1) < 2 * num - den
      ∧ 2 * num - den ≤ 2 * (den : Int) * roundHalfAway num den := by
  rw [roundHalfAway, if_neg (by omega)]
  obtain ⟨hle, hlt⟩ := roundHalfUp_toNat_bounds (num := -num) (by omega) hden
  constructor <;> linarith only [hle, hlt]

/-- Settles O35: the witness is the quotient of R117 as the model rounds it, before the saturation of R104; the sign of the
interval decides which way an exact half goes. -/
theorem intervalValueRoundsAwayFromZero : Obligations.IntervalValueRoundsAwayFromZero := by
  intro dt
  refine ⟨roundHalfAway (dt.toInt * 78125) 32, fun hpos => ?_, fun hneg => ?_, rfl⟩
  · have hnum : 0 ≤ dt.toInt * 78125 := by omega
    exact roundHalfAway_bounds_of_nonneg hnum (den := 32) (by decide)
  · have hnum : dt.toInt * 78125 < 0 := by omega
    exact roundHalfAway_bounds_of_neg hnum (den := 32) (by decide)

end Sys2Proof.Machine
end

section
/-!
IDENTIFY (R168). Its block hands the state on as it got it, so an executed row is the link's bookkeeping around the fixed
data of the part, which R174 lays out least significant byte first.
-/

namespace Sys2Proof.Machine

theorem exec_identify (args : List Byte) (s : State) : exec (.identify args) s = execIdentify args s := rfl

/-- The fields of R168 on the wire: part code, revision, a reserved byte, and the capacities in their order (R174). -/
theorem identifyData_bytes :
    identifyData =
      [0x34, 0x0B, 0x01, 0x00, 4, 5, 8, 8, 0x00, 0x10, 32, 160, 0x00, 0x00, 0x01, 0x00, 25, 4, 8, 0x10, 0x04,
        0x00, 0x04, 0x00, 0x84, 0xD7, 0x17] := by decide

/-- An executed IDENTIFY leaves the state as the link hands it over, but for the ACK with the data of the part. -/
theorem execIdentify_executes {s : State} (h : s.executes [0x01] = true) :
    execIdentify [] s = .next ((s.taken [0x01]).reply 0x01 (Answer.ack identifyData)).arbitrate := by
  unfold execIdentify
  exact command_executes h List.length_nil _

/-- Settles O49: the executed row of `execIdentify_executes`, its data read byte by byte. -/
theorem identifyReportsThePart : Obligations.IdentifyReportsThePart := by
  intro s h
  rw [exec_identify, execIdentify_executes h, identifyData_bytes]

end Sys2Proof.Machine
end

section
/-!
What a row does, said once for all rows: a command row hands the part to its block (`Instr.block`), every other row has one
effect (`Instr.effect`), and around both there is only the link's bookkeeping and the arbiter's pick (R159, R164). A
property that blocks, effects and bookkeeping keep is kept by every step.
-/

namespace Sys2Proof

open Machine

/-! ## Blocks and effects -/

/-- What the block of a command row does and answers, behind the link controller's own checks (R159, R173). The other rows
have no block. -/
def Instr.block : Instr → State → State × Answer
  | .unknownCommand payload => fun s =>
    (s, { nak := some .unknown, field := if payload = [] then 1 else 0, data := [], restart := none })
  | .identify args => withLength 0 args (fun s => (s, Answer.ack identifyData))
  | .status args => withLength 1 args (statusBody args)
  | .restartMeasure args => withLength 1 args (restartBody args)
  | .restartFull args => withLength 1 args (restartBody args)
  | .tbConfig args => withLength 5 args (tbConfigBody args)
  | .tbStart args => withLength 0 args tbStartBody
  | .tbStop args => withLength 0 args tbStopBody
  | .tbSelect args => withLength 1 args (tbSelectBody args)
  | .auxSet args => withLength 2 args (auxSetBody args)
  | .channelSet args => withLength 11 args (channelSetBody args)
  | .channelRead args => withLength 1 args (channelReadBody args)
  | .calibrate args => withLength 1 args (calibrateBody args)
  | .tableRead args => withLength 1 args (tableReadBody args)
  | .gateWrite args => withLength 21 args (gateWriteBody args)
  | .gateCommit args => withLength 1 args (gateCommitBody args)
  | .gateEnable args => withLength 1 args (gateEnableBody args)
  | .gateStopFinish args => withLength 2 args (gateStopBody args)
  | .gateStopAbort args => withLength 2 args (gateStopBody args)
  | .gateRead args => withLength 1 args (gateReadBody args)
  | .slotRead args => withLength 2 args (slotReadBody args)
  | .slotHold args => withLength 2 args (slotHoldBody args)
  | .slotRelease args => withLength 2 args (slotReleaseBody args)
  | .statsClear args => withLength 2 args (statsClearBody args)
  | .streamSet args => withLength 1 args (streamSetBody args)
  | .streamClear args => withLength 0 args streamClearBody
  | .noticeMask args => withLength 3 args (noticeMaskBody args)
  | _ => fun s => (s, Answer.ack [])

/-- What a row that is no command does to an operating part, before the arbiter's pick. The command rows have no effect of
this kind. -/
def Instr.effect : Instr → State → State
  | .powerOnReset => fun s =>
    { State.reset with power := .held, levels := s.levels, lnkclk := s.lnkclk, pending := s.pending }
  | .startUpEnd => fun s => if s.power = .startUp then { s with power := .ready, tb := s.tb.newWindow } else s
  | .monitorWindowEnd => fun s =>
    if s.tb.windowGood then (s.modTb Timebase.newWindow).goodWindow else (s.modTb Timebase.newWindow).monitorAbsent
  | .starvation => fun s => (s.modTb (fun tb => { tb with windowStarved := true })).monitorAbsent
  | .acquireEnd => fun s => if s.tb.state = .acquire then s.acquireDone else s
  | .relockEnd => fun s =>
    if s.tb.state = .relock then
      (s.modTb (fun tb => { tb with state := .run, phaseTimer := none })).postTimebase .relocked
    else s
  | .inputEdge input rising tick bins chans takings => fun s =>
    if s.power = .ready ∧ s.tb.closesAt tick = true then
      (({ s with levels := s.levels.put input rising } : State).advanceTo tick).processEdge input rising tick bins chans
        takings
    else { s with levels := s.levels.put input rising }
  | .holdoffExpiry c => fun s => s.expiry (.holdoff c)
  | .deadTimeExpiry c => fun s => s.expiry (.deadTime c)
  | .calHit tick b => fun s => if s.cal.isSome && s.tb.closesAt tick then (s.advanceTo tick).takeHit b else s
  | .calDeadline => fun s => s.expiry .deadline
  | .gateNominalEnd g => fun s => s.expiry (.nominalEnd g)
  | .gateTimeout g => fun s => s.expiry (.timeout g)
  | .recordFormation g => fun s => s.expiry (.record g)
  | .frameReceived samples => fun s =>
    if s.lnkclk then s.modLink (fun l => samples.foldl Link.sample l) else s
  | .receiveGapExpiry => fun s => s.modLink (fun l =>
    match l.rxBuffer, l.rxGap with
    | _ :: rest, false =>
      Link.hunt rest.length
        { l with rxBuffer := rest, rxGap := true, truncated := satInc Config.sat16 l.truncated }
    | _, _ => l)
  | .linkBreak => fun s =>
    if s.link.rxLine = RxLine.broken then s
    else
      { s.restartFull.modLink (fun l => { l with rxLine := .broken }) with causes := { s.causes with brk := true } }
  | .transmitEnd => fun s =>
    match s.link.tx with
    | some f => if s.lnkclk then s.frameDone f else s
    | none => s
  | .lnkclkStop => fun s => { s with lnkclk := false }
  | .lnkclkReturn => fun s =>
    { s with lnkclk := true }.modLink (fun l => { l with rxLine := if s.lnkclk then l.rxLine else l.rxLine.afterStop })
  | .lnkRxReturnToMark => fun s => s.modLink (fun l => { l with rxLine := l.rxLine.atMark })
  | .rstNRelease => fun s => if s.power = .held then { s with power := .startUp } else s
  | .referenceEdge => fun s => s.modTb Timebase.referenceEdge
  | _ => id

end Sys2Proof

namespace Sys2Proof.Machine

/-- A command row is its block run behind the link controller (R159). -/
theorem exec_command {i : Instr} {p : List Byte} (h : i.payload = some p) (s : State) :
    exec i s = runCommand p (p.headD 0) i.block s := by
  cases i <;> cases h <;> rfl

/-- An event reaches an operating part with its effect and the arbiter's pick, and a part in a power-on reset not at all
(R164, R171). -/
theorem State.event_cases (s : State) (f : State → State) :
    s.event f = .next s ∨ s.event f = .next (f s).arbitrate := by
  unfold State.event
  split
  · exact .inr rfl
  · exact .inl rfl

/-- Every other row leaves the part, or has its effect, with or without a pick of the arbiter behind it. -/
theorem exec_event {i : Instr} (h : i.payload = none) (s : State) :
    exec i s = .next s ∨ exec i s = .next (i.effect s) ∨ exec i s = .next (i.effect s).arbitrate := by
  have event (j : Instr) (hj : exec j s = s.event j.effect) :
      exec j s = .next s ∨ exec j s = .next (j.effect s) ∨ exec j s = .next (j.effect s).arbitrate :=
    hj ▸ (s.event_cases j.effect).imp_right .inr
  match i, h with
  | .powerOnReset, _ => exact .inr (.inl rfl)
  | .startUpEnd, _ => exact .inr (.inl rfl)
  | .monitorWindowEnd, _ => exact event _ rfl
  | .starvation, _ => exact event _ rfl
  | .acquireEnd, _ => exact event _ rfl
  | .relockEnd, _ => exact event _ rfl
  | .inputEdge input rising tick bins chans takings, _ =>
    right
    by_cases hc : s.power = .ready ∧ s.tb.closesAt tick = true
    · exact .inr (by dsimp only [exec, execInputEdge, Instr.effect]; rw [if_pos hc, if_pos hc])
    · exact .inl (by dsimp only [exec, execInputEdge, Instr.effect]; rw [if_neg hc, if_neg hc])
  | .holdoffExpiry _, _ => exact event _ rfl
  | .deadTimeExpiry _, _ => exact event _ rfl
  | .calHit _ _, _ => exact event _ rfl
  | .calDeadline, _ => exact event _ rfl
  | .gateNominalEnd _, _ => exact event _ rfl
  | .gateTimeout _, _ => exact event _ rfl
  | .recordFormation _, _ => exact event _ rfl
  | .frameReceived _, _ => exact event _ rfl
  | .receiveGapExpiry, _ => exact event _ rfl
  | .linkBreak, _ => exact event _ rfl
  | .transmitEnd, _ => exact event _ rfl
  | .lnkclkStop, _ => exact .inr (.inl rfl)
  | .lnkclkReturn, _ => exact .inr (.inr rfl)
  | .lnkRxReturnToMark, _ => exact .inr (.inl rfl)
  | .rstNRelease, _ => exact .inr (.inl rfl)
  | .referenceEdge, _ => exact event _ rfl

/-! ## Properties that every step keeps -/

/-- A command brought to the queue changes the link alone. -/
theorem State.bring_modLink (s : State) (p : List Byte) : ∃ f : Link → Link, s.bring p = s.modLink f := by
  unfold State.bring
  split
  · exact ⟨id, rfl⟩
  · split
    · exact ⟨_, rfl⟩
    · exact ⟨id, rfl⟩

/-- A property of the part that does not look at the link holds after a command row, where the row's block keeps it in a
state in which the command can be executed. -/
theorem runCommand_keeps {P : State → Prop} (hlink : ∀ s f, P s → P (s.modLink f))
    (harb : ∀ s : State, P s → P s.arbitrate) {p : List Byte} {code : Byte} {body : State → State × Answer}
    (hbody : ∀ u : State, u.canExecute p = true → P u → P (body u).1) {s t : State} (hs : P s)
    (h : runCommand p code body s = .next t) : P t := by
  obtain ⟨f, hf⟩ := s.bring_modLink p
  have hb : P (s.bring p) := hf ▸ hlink s f hs
  unfold runCommand at h
  dsimp only at h
  split at h <;> cases h
  next hx =>
    have hcan := (State.canExecute_modLink (s.bring p) p (fun l => { l with commandQueue := l.commandQueue.tail })
      rfl rfl).trans hx.2
    have hbody' : P (body ((s.bring p).modLink fun l => { l with commandQueue := l.commandQueue.tail })).1 :=
      hbody _ hcan (hlink _ _ hb)
    unfold State.execute State.reply
    exact harb _ (hlink _ _ hbody')
  next => exact harb _ hb

/-- A property that does not look at the link is kept by every row whose block or effect keeps it. -/
theorem exec_keeps {P : State → Prop} (hlink : ∀ s f, P s → P (s.modLink f))
    (harb : ∀ s : State, P s → P s.arbitrate)
    (hblock : ∀ (i : Instr) (p : List Byte), i.payload = some p → ∀ u : State, u.canExecute p = true → P u → P (i.block u).1)
    (heffect : ∀ i : Instr, i.payload = none → ∀ u : State, P u → P (i.effect u)) {i : Instr} {s t : State} (hs : P s)
    (h : exec i s = .next t) : P t := by
  cases hp : i.payload with
  | some p =>
    rw [exec_command hp] at h
    exact runCommand_keeps hlink harb (hblock i p hp) hs h
  | none =>
    rcases exec_event hp s with e | e | e <;> rw [e] at h <;> cases h
    · exact hs
    · exact heffect i hp s hs
    · exact harb _ (heffect i hp s hs)

/-- A property that rows, a tick and the taking of a row from the queue keep is kept by every step. -/
theorem step_keeps {P : State → Prop} (hpending : ∀ (s : State) rest, P s → P { s with pending := rest })
    (htick : ∀ s : State, P s → P s.tick) (hexec : ∀ (i : Instr) (s t : State), P s → exec i s = .next t → P t)
    {s t : State} (hs : P s) (h : step s = .next t) : P t := by
  unfold step at h
  split at h
  · exact hexec _ _ _ (hpending _ _ hs) h
  · unfold idleStep at h
    split at h
    · split at h
      · exact hexec _ _ _ hs h
      · cases h
        exact htick s hs
    · cases h
      exact htick s hs

/-- Every expiry and the counter's moving keep what a tick keeps. -/
theorem State.tick_keeps {P : State → Prop} (h : ∀ u w y, P u → P (u.expire w y).arbitrate)
    (hc : ∀ u x, P u → P (u.atCount x)) {s : State} (hs : P s) : P s.tick := by
  unfold State.tick
  split
  · exact State.advanceTo_keeps h hc _ hs
  · exact hs

end Sys2Proof.Machine
end

section
/-!
What the block of a command can make of the part, with what its checks have established: one case for each change that R2 to
R170 give a command. Every invariant takes its command rows from here.
-/

namespace Sys2Proof.Machine

/-- From `s` a command's block makes the part on the right; the premises are the checks that come before (R2 to R170). -/
inductive BlockStep (s : State) : State → Prop where
  | unchanged : BlockStep s s
  | clearStatus : BlockStep s s.clearStatus
  | restart (kind : RestartKind) : BlockStep s (s.modLink (fun l => { l with restart := some kind }))
  | configure (sel : Source) (freq : RefFreq) (detect : Bool) (action : LossAction) (revert : Bool)
      (hhalt : s.tb.state = .halt) (hsel : sel = .ext ∨ sel = .int) :
      BlockStep s (s.modTb (fun tb => tb.configure sel freq detect action revert))
  | start (hhalt : s.tb.state = .halt) : BlockStep s s.startTb
  | stop (hstate : s.tb.state ≠ .halt) : BlockStep s (s.enterHalt .stop)
  | selectHalt (src : Source) (hhalt : s.tb.state = .halt) (hsrc : src = .ext ∨ src = .int) :
      BlockStep s (s.modTb (fun tb => { tb with selected := src }))
  | relock (src : Source) (hrun : s.tb.state = .run) (hsrc : src = .ext ∨ src = .int) :
      BlockStep s ((s.modTb (fun tb => { tb with selected := src })).beginRelock src .select)
  | leaveHoldover (hrun : s.tb.state = .run) (hforce : s.tb.inForce ≠ .ext) :
      BlockStep s ((s.modTb (fun tb => { tb with selected := .int, holdover := false })).postTimebase .select)
  | storeAux (role : AuxRole) (activeHigh : Bool) (huse : s.auxInUse = false)
      (hcal : ¬(role ≠ .signal ∧ allChans.any (fun c => s.boundToAux c && s.calibrates c) = true)) :
      BlockStep s (s.storeAux role activeHigh)
  | storeSettings (c : Chan) (new : Settings)
      (hbusy : ¬((s.chanState c = .calibrating ∨ s.inUse c = true) ∧ new.sameButHoldoff (s.chan c).set = false)) :
      BlockStep s (s.storeSettings c new)
  | startCal (c : Chan) (hrun : s.tb.state = .run)
      (hfree : ¬(s.cal.isSome = true ∨ s.chanState c = .parked ∨ s.inUse c = true)) : BlockStep s (s.startCal c)
  | write (g : Desc) (cp : GateCopy) (hpending : (s.desc g).commitPending = false) :
      BlockStep s (s.modDesc g (fun d => { d with staged := cp }))
  | commit (g : Desc) (hclose : (s.desc g).closeEvent = none) (hpending : (s.desc g).commitPending = false)
      (hfault : (s.desc g).staged.commitFault g = none) : BlockStep s (s.commitNow g)
  | enable (g : Desc) (hclose : (s.desc g).closeEvent = none) (hoff : (s.desc g).state = .off)
      (hfn : (s.desc g).active.fn ≠ .none) : BlockStep s (s.enable g)
  | finish (g : Desc) (hclose : (s.desc g).closeEvent = none) : BlockStep s (s.finish g)
  | abort (g : Desc) (hclose : (s.desc g).closeEvent = none) : BlockStep s (s.abort g)
  | clearLost (k : SlotId) : BlockStep s (s.modSlot k (fun sl => { sl with lost := false }))
  | hold (set : Byte) : BlockStep s (s.forSlots set (fun k v => v.modSlot k (fun sl => { sl with held := true })))
  | release (set : Byte) : BlockStep s (s.forSlots set (fun k v => v.release k))
  | clearStats (set : Byte) :
      BlockStep s (s.forSlots set (fun k v => v.modSlot k (fun sl => { sl with stats := Stats.empty })))
  | setStream (set : Byte) :
      BlockStep s (s.forChans (fun c v => v.modChan c (fun ch => { ch with streamEnable := set.getLsbD c.val })))
  | clearStream : BlockStep s (s.modStream (fun u => { u with fifo := [], drops := Vector.replicate 4 0 }))
  | mask (m : Mask) :
      BlockStep s (s.modLink (fun l =>
        { l with mask := m, noticeQueue := s.link.noticeQueue.filter (fun e => m.admits e.key) }))

theorem readSource_eq_some {b : Byte} {src : Source} (h : readSource b = some src) : src = .ext ∨ src = .int := by
  unfold readSource at h
  split at h
  · cases h; exact .inl rfl
  · split at h <;> cases h
    exact .inr rfl

/-! ## TB SELECT in RUN: the four rows of R11 -/

section
variable {s : State}

theorem State.selectInRun_ext_inForce (h : s.tb.inForce = .ext) : s.selectInRun .ext = s.ackSnapshot := by
  unfold State.selectInRun
  rw [h]

theorem State.selectInRun_ext (h : s.tb.inForce ≠ .ext) :
    s.selectInRun .ext =
      if s.tb.monitor = .good then
        ((s.modTb (fun tb => { tb with selected := .ext })).beginRelock .ext .select).ackSnapshot
      else (s, Answer.refuse .noRef) := by
  unfold State.selectInRun
  generalize s.tb.inForce = f at *
  cases f with
  | ext => exact absurd rfl h
  | none => rfl
  | int => rfl

theorem State.selectInRun_int_of_ext (h : s.tb.inForce = .ext) :
    s.selectInRun .int = ((s.modTb (fun tb => { tb with selected := .int })).beginRelock .int .select).ackSnapshot := by
  unfold State.selectInRun
  rw [h]

theorem State.selectInRun_int (h : s.tb.inForce ≠ .ext) :
    s.selectInRun .int =
      if s.tb.holdover then
        ((s.modTb (fun tb => { tb with selected := .int, holdover := false })).postTimebase .select).ackSnapshot
      else s.ackSnapshot := by
  unfold State.selectInRun
  generalize s.tb.inForce = f at *
  cases f with
  | ext => exact absurd rfl h
  | none => rfl
  | int => rfl

end

@[simp] theorem State.ackSnapshot_fst (s : State) : s.ackSnapshot.1 = s := rfl

theorem BlockStep.selectInRun {s : State} (hrun : s.tb.state = .run) {src : Source} (hsrc : src = .ext ∨ src = .int) :
    BlockStep s (s.selectInRun src).1 := by
  by_cases hf : s.tb.inForce = .ext
  · rcases hsrc with rfl | rfl
    · rw [State.selectInRun_ext_inForce hf]
      exact .unchanged
    · rw [State.selectInRun_int_of_ext hf, State.ackSnapshot_fst]
      exact .relock .int hrun (.inr rfl)
  · rcases hsrc with rfl | rfl
    · rw [State.selectInRun_ext hf]
      split
      · rw [State.ackSnapshot_fst]
        exact .relock .ext hrun (.inl rfl)
      · exact .unchanged
    · rw [State.selectInRun_int hf]
      split
      · rw [State.ackSnapshot_fst]
        exact .leaveHoldover hrun hf
      · exact .unchanged

/-! ## Each block -/

theorem BlockStep.withLength {s : State} {n : Nat} {args : List Byte} {body : State → State × Answer}
    (h : args.length = n → BlockStep s (body s).1) : BlockStep s (withLength n args body s).1 := by
  unfold Machine.withLength
  split
  · next hl => exact h hl
  · exact .unchanged

/-- A GATE command of the right length whose descriptor waits for a record cannot be executed (R92, R159). -/
theorem State.closeEvent_none_of_canExecute {s : State} {p : List Byte} (h : s.canExecute p = true) {g : Desc}
    (hg : gateTarget p = some g) : (s.desc g).closeEvent = none := by
  simp only [State.canExecute, State.gateBusy, hg, Bool.and_eq_true] at h
  simpa using h.2

theorem BlockStep.tbConfig (args : List Byte) (s : State) : BlockStep s (tbConfigBody args s).1 := by
  unfold tbConfigBody
  split
  · exact .unchanged
  · next hs =>
    split
    · exact .unchanged
    · exact .unchanged
    · exact .unchanged
    · exact .unchanged
    · exact .unchanged
    · next hsrc _ _ _ _ => exact .configure _ _ _ _ _ (not_not.mp hs) (readSource_eq_some hsrc)

theorem BlockStep.tbStart (s : State) : BlockStep s (tbStartBody s).1 := by
  unfold tbStartBody
  split
  · exact .unchanged
  · next hs =>
    split
    · exact .unchanged
    · exact .start (not_not.mp hs)

theorem BlockStep.tbStop (s : State) : BlockStep s (tbStopBody s).1 := by
  unfold tbStopBody
  split
  · exact .unchanged
  · next hs =>
    rw [State.ackSnapshot_fst]
    exact .stop hs

theorem BlockStep.tbSelect (args : List Byte) (s : State) : BlockStep s (tbSelectBody args s).1 := by
  unfold tbSelectBody
  split
  · exact .unchanged
  · next hsrc hs => exact .selectHalt _ hs (readSource_eq_some hsrc)
  · exact .unchanged
  · exact .unchanged
  · next hsrc hs => exact .selectInRun hs (readSource_eq_some hsrc)

theorem BlockStep.auxSet (args : List Byte) (s : State) : BlockStep s (auxSetBody args s).1 := by
  unfold auxSetBody
  split
  · exact .unchanged
  · exact .unchanged
  · split
    · exact .unchanged
    · next huse =>
      split
      · exact .unchanged
      · next hcal =>
        dsimp only
        exact .storeAux _ _ (Bool.eq_false_iff.mpr huse) hcal

theorem BlockStep.channelSet (args : List Byte) (s : State) : BlockStep s (channelSetBody args s).1 := by
  unfold channelSetBody
  split
  · exact .unchanged
  · split
    · exact .unchanged
    · split
      · exact .unchanged
      · next hbusy =>
        dsimp only
        exact .storeSettings _ _ hbusy

theorem BlockStep.calibrate (args : List Byte) (s : State) : BlockStep s (calibrateBody args s).1 := by
  unfold calibrateBody
  split
  · exact .unchanged
  · split
    · exact .unchanged
    · next hs =>
      split
      · exact .unchanged
      · next hfree => exact .startCal _ (not_not.mp hs) hfree

section
variable {s : State} {args : List Byte}

theorem BlockStep.gateWrite : BlockStep s (gateWriteBody args s).1 := by
  unfold gateWriteBody
  split
  · exact .unchanged
  · split
    · exact .unchanged
    · next hp =>
      split
      · exact .unchanged
      · exact .write _ _ (Bool.eq_false_iff.mpr hp)

/-- The descriptor that the argument byte of a GATE command names waits for no record. -/
theorem State.closeEvent_none_of_arg {code : Byte} (hcode : code = 0x41 ∨ code = 0x42) (hl : args.length = 1)
    (h : s.canExecute (code :: args) = true) {g : Desc} (hg : readEight (arg args 0) = some g) :
    (s.desc g).closeEvent = none := by
  obtain ⟨a, rfl⟩ := List.length_eq_one_iff.mp hl
  refine State.closeEvent_none_of_canExecute h ?_
  rcases hcode with rfl | rfl <;> simpa [gateTarget, arg] using hg

theorem BlockStep.gateCommit (hl : args.length = 1) (h : s.canExecute (0x41 :: args) = true) :
    BlockStep s (gateCommitBody args s).1 := by
  unfold gateCommitBody
  split
  · exact .unchanged
  · next hg =>
    split
    · exact .unchanged
    · next hp =>
      split
      · exact .unchanged
      · next hf =>
        exact .commit _ (State.closeEvent_none_of_arg (.inl rfl) hl h hg) (Bool.eq_false_iff.mpr hp) hf

theorem BlockStep.gateEnable (hl : args.length = 1) (h : s.canExecute (0x42 :: args) = true) :
    BlockStep s (gateEnableBody args s).1 := by
  unfold gateEnableBody
  split
  · exact .unchanged
  · next hg =>
    split
    · exact .unchanged
    · next hoff =>
      split
      · exact .unchanged
      · next hfn => exact .enable _ (State.closeEvent_none_of_arg (.inr rfl) hl h hg) (not_not.mp hoff) hfn

theorem BlockStep.gateStop (hl : args.length = 2) (h : s.canExecute (0x43 :: args) = true) :
    BlockStep s (gateStopBody args s).1 := by
  obtain ⟨a, b, rfl⟩ := List.length_eq_two.mp hl
  unfold gateStopBody
  split
  · exact .unchanged
  · next g hg =>
    have hclose : (s.desc g).closeEvent = none :=
      State.closeEvent_none_of_canExecute h (by simpa [gateTarget, arg] using hg)
    split
    · exact .finish g hclose
    · split
      · exact .abort g hclose
      · exact .unchanged

theorem BlockStep.slotRead : BlockStep s (slotReadBody args s).1 := by
  unfold slotReadBody
  split
  · exact .unchanged
  · exact .unchanged
  · dsimp only
    split
    · exact .clearLost _
    · exact .unchanged

theorem BlockStep.slotHold : BlockStep s (slotHoldBody args s).1 := by
  unfold slotHoldBody
  split
  · exact .unchanged
  · exact .hold _

theorem BlockStep.slotRelease : BlockStep s (slotReleaseBody args s).1 := by
  unfold slotReleaseBody
  split
  · exact .unchanged
  · exact .release _

theorem BlockStep.statsClear : BlockStep s (statsClearBody args s).1 := by
  unfold statsClearBody
  split
  · exact .unchanged
  · exact .clearStats _

theorem BlockStep.streamSet : BlockStep s (streamSetBody args s).1 := by
  unfold streamSetBody
  split
  · exact .unchanged
  · exact .setStream _

theorem BlockStep.noticeMask : BlockStep s (noticeMaskBody args s).1 := by
  unfold noticeMaskBody
  split
  · exact .unchanged
  · exact .mask _

theorem BlockStep.status : BlockStep s (statusBody args s).1 := by
  unfold statusBody
  split
  · exact .unchanged
  · dsimp only
    split
    · exact .clearStatus
    · exact .unchanged

theorem BlockStep.restartBody : BlockStep s (restartBody args s).1 := by
  unfold Machine.restartBody
  split
  · exact .unchanged
  · exact .restart _

theorem BlockStep.channelRead : BlockStep s (channelReadBody args s).1 := by
  unfold channelReadBody
  split <;> exact .unchanged

theorem BlockStep.tableRead : BlockStep s (tableReadBody args s).1 := by
  unfold tableReadBody
  split <;> exact .unchanged

theorem BlockStep.gateRead : BlockStep s (gateReadBody args s).1 := by
  unfold gateReadBody
  split <;> exact .unchanged

end

/-- What the block of a command row can do, where the command can be executed. -/
theorem block_step {i : Instr} {p : List Byte} (hp : i.payload = some p) {s : State} (h : s.canExecute p = true) :
    BlockStep s (i.block s).1 := by
  match i, hp with
  | .unknownCommand _, _ => exact .unchanged
  | .identify _, _ => exact .withLength fun _ => .unchanged
  | .status _, _ => exact .withLength fun _ => .status
  | .restartMeasure _, _ => exact .withLength fun _ => .restartBody
  | .restartFull _, _ => exact .withLength fun _ => .restartBody
  | .tbConfig _, _ => exact .withLength fun _ => .tbConfig _ s
  | .tbStart _, _ => exact .withLength fun _ => .tbStart s
  | .tbStop _, _ => exact .withLength fun _ => .tbStop s
  | .tbSelect _, _ => exact .withLength fun _ => .tbSelect _ s
  | .auxSet _, _ => exact .withLength fun _ => .auxSet _ s
  | .channelSet _, _ => exact .withLength fun _ => .channelSet _ s
  | .channelRead _, _ => exact .withLength fun _ => .channelRead
  | .calibrate _, _ => exact .withLength fun _ => .calibrate _ s
  | .tableRead _, _ => exact .withLength fun _ => .tableRead
  | .gateWrite _, _ => exact .withLength fun _ => .gateWrite
  | .gateCommit _, rfl => exact .withLength fun hl => .gateCommit hl h
  | .gateEnable _, rfl => exact .withLength fun hl => .gateEnable hl h
  | .gateStopFinish _, rfl => exact .withLength fun hl => .gateStop hl h
  | .gateStopAbort _, rfl => exact .withLength fun hl => .gateStop hl h
  | .gateRead _, _ => exact .withLength fun _ => .gateRead
  | .slotRead _, _ => exact .withLength fun _ => .slotRead
  | .slotHold _, _ => exact .withLength fun _ => .slotHold
  | .slotRelease _, _ => exact .withLength fun _ => .slotRelease
  | .statsClear _, _ => exact .withLength fun _ => .statsClear
  | .streamSet _, _ => exact .withLength fun _ => .streamSet
  | .streamClear _, _ => exact .withLength fun _ => .clearStream
  | .noticeMask _, _ => exact .withLength fun _ => .noticeMask

end Sys2Proof.Machine
end

section
/-!
What the timebase's transitions leave in the timebase and of the calibration in progress, and the invariant of the timebase:
source in force, holdover, phase timer, run count and calibration go with the state (R1, R4, R5, R13, R69).
-/

namespace Sys2Proof.Machine

/-! ## The transitions of the timebase, field by field -/

@[simp] theorem State.modTb_calibrates (s : State) (f : Timebase → Timebase) (c : Chan) :
    (s.modTb f).calibrates c = s.calibrates c := rfl

theorem State.postTimebase_tb (s : State) (cause : TbCause) :
    (s.postTimebase cause).tb = { s.tb with changeCount := s.tb.changeCount + 1, lastCause := cause } := rfl

@[simp] theorem State.postTimebase_cal (s : State) (cause : TbCause) : (s.postTimebase cause).cal = s.cal := rfl

@[simp] theorem State.dropCal_cal (s : State) (outcome : CalOutcome) : (s.dropCal outcome).cal = none := by
  unfold State.dropCal
  split
  · assumption
  · rfl

@[simp] theorem State.dropCal_tb (s : State) (outcome : CalOutcome) : (s.dropCal outcome).tb = s.tb := by
  unfold State.dropCal
  split <;> rfl

@[simp] theorem State.endCal_cal (s : State) (outcome : CalOutcome) : (s.endCal outcome).cal = none := by
  unfold State.endCal
  split
  · assumption
  · rw [(EngineOnly.judgeAll _).cal, State.post_cal, State.dropCal_cal]

/-- A loop over the channels that changes channels alone leaves what `f` reads elsewhere. -/
theorem State.forChans_modChan_tb (s : State) (f : Chan → Channel → Channel) :
    (s.forChans (fun c u => u.modChan c (f c))).tb = s.tb :=
  State.forChans_keeps (P := fun u => u.tb = s.tb) (fun _ _ h => h) rfl

theorem State.forChans_modChan_cal (s : State) (f : Chan → Channel → Channel) :
    (s.forChans (fun c u => u.modChan c (f c))).cal = s.cal :=
  State.forChans_keeps (P := fun u => u.cal = s.cal) (fun _ _ h => h) rfl

theorem State.beginRelock_tb (s : State) (target : Source) (cause : TbCause) :
    (s.beginRelock target cause).tb =
      { s.tb with state := .relock, inForce := target, holdover := holdoverOf s.tb.selected target
                  phaseTimer := some Config.relockCycles, changeCount := s.tb.changeCount + 1, lastCause := cause } := by
  unfold State.beginRelock
  dsimp only
  rw [(EngineOnly.gatherFlags _).tb]
  split
  · rw [State.endCal_tb]
    rfl
  · rfl

theorem State.beginRelock_cal (s : State) (target : Source) (cause : TbCause) :
    (s.beginRelock target cause).cal = if s.tb.state = .run then none else s.cal := by
  unfold State.beginRelock
  dsimp only
  rw [(EngineOnly.gatherFlags _).cal]
  split
  · exact State.endCal_cal _ _
  · rfl

theorem State.enterHalt_tb (s : State) (cause : TbCause) :
    (s.enterHalt cause).tb =
      { s.tb with state := .halt, inForce := .none, holdover := false, phaseTimer := none
                  changeCount := s.tb.changeCount + 1, lastCause := cause } := by
  unfold State.enterHalt
  dsimp only
  have halts (w : State) : (if s.tb.counting then w.haltDescs else w).tb = w.tb := by
    split
    · exact (EngineOnly.haltDescs w).tb
    · rfl
  rw [halts]
  split
  · rw [State.endCal_tb, State.forChans_modChan_tb]
    rfl
  · rw [State.forChans_modChan_tb]
    rfl

theorem State.enterHalt_cal (s : State) (cause : TbCause) :
    (s.enterHalt cause).cal = if s.tb.state = .run then none else s.cal := by
  unfold State.enterHalt
  dsimp only
  have halts (w : State) : (if s.tb.counting then w.haltDescs else w).cal = w.cal := by
    split
    · exact (EngineOnly.haltDescs w).cal
    · rfl
  rw [halts]
  split
  · exact State.endCal_cal _ _
  · rw [State.forChans_modChan_cal]
    rfl

theorem State.startTb_tb (s : State) :
    s.startTb.tb =
      { s.tb with state := .acquire, inForce := s.tb.selected, holdover := false, coarse := 0, ticked := false
                  phaseTimer := some Config.acquireCycles, changeCount := s.tb.changeCount + 1, lastCause := .start } := by
  unfold State.startTb
  dsimp only
  rw [State.forChans_modChan_tb]
  rfl

theorem State.startTb_cal (s : State) : s.startTb.cal = s.cal := by
  unfold State.startTb
  dsimp only
  rw [State.forChans_modChan_cal]
  rfl

theorem State.acquireDone_tb (s : State) :
    s.acquireDone.tb =
      { s.tb with state := .run, phaseTimer := none, coarse := 0, ticked := false
                  changeCount := s.tb.changeCount + 1, lastCause := .acquired } :=
  (EngineOnly.judgeAll _).tb

theorem State.acquireDone_cal (s : State) : s.acquireDone.cal = s.cal := (EngineOnly.judgeAll _).cal

/-! ## The invariant -/

/-- Soundness of the timebase is a matter of the timebase and of whether a calibration runs. -/
theorem State.timebaseSound.congr {s t : State} (h : s.timebaseSound) (htb : t.tb = s.tb)
    (hcal : t.cal = s.cal ∨ t.cal = none) : t.timebaseSound := by
  unfold State.timebaseSound at *
  rw [htb]
  rcases hcal with hcal | hcal <;> rw [hcal]
  · exact h
  · simp_all

theorem State.timebaseSound.engine {s t : State} (h : s.timebaseSound) (e : EngineOnly s t) : t.timebaseSound :=
  h.congr e.tb (.inl e.cal)

/-- What the invariant says of the monitor (R4). -/
def Timebase.monitorSound (tb : Timebase) : Prop :=
  tb.runCount ≤ 100 ∧ (tb.monitor = .absent ↔ tb.runCount = 0) ∧ (tb.monitor = .good ↔ tb.runCount = 100)

/-- What the invariant says of a timebase in transit: a source is selected, the counter stands at 0 until its first tick,
and a calibration runs in RUN alone. What it says of the source in force each transition sets anew (R1, R6, R69). -/
def State.transitSound (s : State) : Prop :=
  s.tb.selected ≠ .none ∧ (s.tb.ticked = false → s.tb.coarse = 0) ∧ (s.cal.isSome = true → s.tb.state = .run)

theorem State.timebaseSound.monitor {s : State} (h : s.timebaseSound) : s.tb.monitorSound := by
  obtain ⟨-, -, -, -, -, hle, habs, hgood, -, -⟩ := h
  exact ⟨hle, habs, hgood⟩

theorem State.timebaseSound.transit {s : State} (h : s.timebaseSound) : s.transitSound := by
  obtain ⟨hsel, -, -, -, -, -, -, -, hcal, hticked⟩ := h
  exact ⟨hsel, hticked, hcal⟩

/-- With another monitor and run count that go together, and another window, a sound timebase stays sound. -/
theorem State.timebaseSound.withMonitor {s t : State} (h : s.timebaseSound)
    (htb : t.tb = { s.tb with monitor := t.tb.monitor, runCount := t.tb.runCount, windowCount := t.tb.windowCount
                              windowStarved := t.tb.windowStarved, dividerHalf := t.tb.dividerHalf })
    (hmon : t.tb.monitorSound) (hcal : t.cal = s.cal) : t.timebaseSound := by
  obtain ⟨hle, habs, hgood⟩ := hmon
  obtain ⟨hsel, hnone, hext, hhold, hphase, -, -, -, hrun, hticked⟩ := h
  refine ⟨?_, ?_, ?_, ?_, ?_, hle, habs, hgood, ?_, ?_⟩ <;> rw [htb]
  · exact hsel
  · exact hnone
  · exact hext
  · exact hhold
  · exact hphase
  · rw [hcal]; exact hrun
  · exact hticked

/-- A transition that ends a calibration in leaving RUN leaves none, where one runs in RUN alone. -/
theorem State.transitSound.cal_isSome {s : State} (h : s.transitSound) :
    (if s.tb.state = .run then none else s.cal).isSome = false := by
  obtain ⟨-, -, hcal⟩ := h
  split
  · rfl
  · next hx =>
    cases hc : s.cal with
    | none => rfl
    | some r => exact absurd (hcal (by rw [hc]; rfl)) hx

/-- A relock onto INT, or onto EXT where that is selected, makes the timebase sound whatever source was in force. -/
theorem State.beginRelock_sound {u : State} (h : u.transitSound) (hmon : u.tb.monitorSound) {target : Source}
    (htarget : target = .int ∨ target = .ext ∧ u.tb.selected = .ext) (cause : TbCause) :
    (u.beginRelock target cause).timebaseSound := by
  have hcal := h.cal_isSome
  obtain ⟨hsel, hticked, -⟩ := h
  obtain ⟨hle, habs, hgood⟩ := hmon
  unfold State.timebaseSound
  rw [State.beginRelock_cal, hcal, State.beginRelock_tb]
  rcases htarget with rfl | ⟨rfl, hext⟩
  · simpa [holdoverOf, hsel, hle, habs, hgood] using hticked
  · simpa [holdoverOf, hext, hle, habs, hgood] using hticked

theorem State.enterHalt_sound {u : State} (h : u.transitSound) (hmon : u.tb.monitorSound) (cause : TbCause) :
    (u.enterHalt cause).timebaseSound := by
  have hcal := h.cal_isSome
  obtain ⟨hsel, hticked, -⟩ := h
  obtain ⟨hle, habs, hgood⟩ := hmon
  unfold State.timebaseSound
  rw [State.enterHalt_cal, hcal, State.enterHalt_tb]
  simpa [hsel, hle, habs, hgood] using hticked

/-- A loss in ACQUIRE restarts the acquisition on INT (R14). -/
theorem State.restartAcquire_sound {u : State} (h : u.transitSound) (hmon : u.tb.monitorSound)
    (hstate : u.tb.state = .acquire) : u.restartAcquire.timebaseSound := by
  have hcal := h.cal_isSome
  obtain ⟨hsel, hticked, -⟩ := h
  obtain ⟨hle, habs, hgood⟩ := hmon
  rw [hstate, if_neg TbState.noConfusion] at hcal
  unfold State.timebaseSound
  show _ ∧ _ ∧ _ ∧ _ ∧ _ ∧ _ ∧ _ ∧ _ ∧ (u.cal.isSome = true → _) ∧ _
  rw [hcal, show u.restartAcquire.tb = { u.tb with
    inForce := .int, holdover := holdoverOf u.tb.selected .int, phaseTimer := some Config.acquireCycles
    changeCount := u.tb.changeCount + 1, lastCause := .loss } from rfl]
  simpa [holdoverOf, hsel, hle, habs, hgood, hstate] using hticked

/-! ## The monitor's events -/

theorem State.lose_sound {u : State} (h : u.timebaseSound) : u.lose.timebaseSound := by
  unfold State.lose
  split
  · split
    · exact h
    · exact State.enterHalt_sound h.transit h.monitor _
    · next hs => exact State.restartAcquire_sound h.transit h.monitor hs
    · exact State.beginRelock_sound h.transit h.monitor (.inl rfl) _
  · exact h

theorem State.monitorAbsent_sound {s : State} (h : s.timebaseSound) : s.monitorAbsent.timebaseSound := by
  have habsent : (s.modTb (fun tb => { tb with monitor := .absent, runCount := 0 })).timebaseSound :=
    h.withMonitor rfl ⟨by simp, by simp, by simp⟩ rfl
  unfold State.monitorAbsent
  dsimp only
  split
  · exact State.lose_sound habsent
  · exact habsent

theorem State.monitorGood_sound {s : State} (h : s.timebaseSound) : s.monitorGood.timebaseSound := by
  have hgood : (s.modTb (fun tb => { tb with monitor := .good, runCount := Config.goodRun })).timebaseSound :=
    h.withMonitor rfl ⟨by simp [Config.goodRun], by simp [Config.goodRun], by simp [Config.goodRun]⟩ rfl
  unfold State.monitorGood
  dsimp only
  split
  · next hx =>
    obtain ⟨-, -, -, hhold, -⟩ := h
    exact State.beginRelock_sound hgood.transit hgood.monitor (.inr ⟨rfl, (hhold.mp hx.2.2).1⟩) _
  · exact hgood

theorem State.goodWindow_sound {s : State} (h : s.timebaseSound) : s.goodWindow.timebaseSound := by
  obtain ⟨hle, habs, hgood⟩ := h.monitor
  unfold State.goodWindow
  split
  · exact h.withMonitor rfl ⟨by simp, by simp, by simp⟩ rfl
  · next hp =>
    split
    · next hlt =>
      refine h.withMonitor rfl ⟨?_, ?_, ?_⟩ rfl
      · exact Nat.le_of_lt hlt
      · simp [hp]
      · have : s.tb.runCount + 1 ≠ 100 := Nat.ne_of_lt hlt
        simp [hp, this]
    · exact State.monitorGood_sound h
  · exact h

/-! ## Expiries and the counter -/

theorem State.expire_cal (s : State) (w : Wait) (x : Coarse) :
    (s.expire w x).cal = s.cal ∨ (s.expire w x).cal = none := by
  cases w with
  | holdoff c => exact .inl rfl
  | deadTime c => exact .inl rfl
  | deadline => exact .inr (State.endCal_cal s .osc)
  | nominalEnd g =>
    left
    show (s.nominalEnd g x).cal = s.cal
    unfold State.nominalEnd
    split
    · rfl
    · split
      · exact (EngineOnly.closeGate s g _).cal
      · rfl
  | timeout g =>
    left
    show (s.timeout g x).cal = s.cal
    unfold State.timeout
    split
    · exact (((EngineOnly.modDesc s g _).trans (.postGate _ g _)).trans (.judge _ g)).cal
    · exact (EngineOnly.closeGate s g _).cal
    · exact (EngineOnly.closeGate s g _).cal
    · rfl
  | record g => exact .inl (EngineOnly.formation s g).cal

theorem State.timebaseSound.expire {s : State} (h : s.timebaseSound) (w : Wait) (x : Coarse) :
    (s.expire w x).timebaseSound := h.congr (s.expire_tb w x) (s.expire_cal w x)

theorem State.timebaseSound.arbitrate {s : State} (h : s.timebaseSound) : s.arbitrate.timebaseSound :=
  h.congr s.arbitrate_tb (.inl s.arbitrate_cal)

theorem State.timebaseSound.atCount {s : State} (h : s.timebaseSound) (x : Coarse) : (s.atCount x).timebaseSound := by
  obtain ⟨hsel, hnone, hext, hhold, hphase, hle, habs, hgood, hcal, hticked⟩ := h
  refine ⟨hsel, hnone, hext, hhold, hphase, hle, habs, hgood, hcal, ?_⟩
  show (s.tb.ticked || decide (x ≠ s.tb.coarse)) = false → x = 0
  intro hx
  obtain ⟨ht, hx⟩ := Bool.or_eq_false_iff.mp hx
  have hxc : x = s.tb.coarse := by simpa using hx
  rw [hxc]
  exact hticked ht

theorem State.timebaseSound.advanceTo {s : State} (h : s.timebaseSound) (x : Coarse) :
    (s.advanceTo x).timebaseSound :=
  State.advanceTo_keeps (fun _ w y hu => (hu.expire w y).arbitrate) (fun _ y hu => hu.atCount y) x h

theorem State.expiry_keeps {P : State → Prop} (h : ∀ u w y, P u → P (u.expire w y))
    (harb : ∀ u : State, P u → P u.arbitrate) (hc : ∀ u x, P u → P (u.atCount x)) {s : State} (hs : P s) (w : Wait) :
    P (s.expiry w) := by
  have ifDue : ∀ u : State, P u → P (u.expireIfDue w) := by
    intro u hu
    unfold State.expireIfDue
    split
    · split
      · exact h u w _ hu
      · exact hu
    · exact hu
  unfold State.expiry
  split
  · split
    · refine ifDue _ ?_
      split
      · exact hs
      · exact State.advanceTo_keeps (fun u v y hu => harb _ (h u v y hu)) hc _ hs
    · exact hs
  · exact hs

theorem State.timebaseSound.expiry {s : State} (h : s.timebaseSound) (w : Wait) : (s.expiry w).timebaseSound :=
  State.expiry_keeps (fun _ v y hu => hu.expire v y) (fun _ hu => hu.arbitrate) (fun _ y hu => hu.atCount y) h w

/-! ## Commands -/

/-- What the loops of AUX SET, STREAM SET and the restarts, which change channels and descriptors alone, leave. -/
theorem State.forChans_engine_tb {f : Chan → State → State}
    (h : ∀ c u, (f c u).tb = u.tb ∧ (f c u).cal = u.cal) (s : State) :
    (s.forChans f).tb = s.tb ∧ (s.forChans f).cal = s.cal :=
  State.forChans_keeps (P := fun u => u.tb = s.tb ∧ u.cal = s.cal)
    (fun c u hu => ⟨(h c u).1.trans hu.1, (h c u).2.trans hu.2⟩) ⟨rfl, rfl⟩

theorem State.forEight_tb {f : Fin 8 → State → State}
    (h : ∀ g u, (f g u).tb = u.tb ∧ (f g u).cal = u.cal) (s : State) :
    (s.forEight f).tb = s.tb ∧ (s.forEight f).cal = s.cal :=
  State.forEight_keeps (P := fun u => u.tb = s.tb ∧ u.cal = s.cal)
    (fun c u hu => ⟨(h c u).1.trans hu.1, (h c u).2.trans hu.2⟩) ⟨rfl, rfl⟩

theorem Timebase.configure_sound {s : State} (h : s.timebaseSound) (hhalt : s.tb.state = .halt) {sel : Source}
    (hsel : sel = .ext ∨ sel = .int) (freq : RefFreq) (detect : Bool) (action : LossAction) (revert : Bool) :
    (s.modTb (fun tb => tb.configure sel freq detect action revert)).timebaseSound := by
  obtain ⟨-, hnone, -, hhold, hphase, hle, habs, hgood, hcal, hticked⟩ := h
  have hf : s.tb.inForce = .none := hnone.mpr hhalt
  have hp : s.tb.phaseTimer = none := by simpa [hhalt] using hphase
  have hh : s.tb.holdover = false := by simpa [hf] using hhold
  have hc : s.cal = none := by simpa [hhalt] using hcal
  have hsel' : sel ≠ .none := by rcases hsel with rfl | rfl <;> decide
  unfold State.timebaseSound Timebase.configure
  dsimp only [State.modTb]
  split
  · simpa [hf, hp, hh, hc, hhalt, hsel', hle, habs, hgood] using hticked
  · simpa [Timebase.newWindow, hf, hp, hh, hc, hhalt, hsel'] using hticked

theorem State.startTb_sound {s : State} (h : s.timebaseSound) (hhalt : s.tb.state = .halt) :
    s.startTb.timebaseSound := by
  obtain ⟨hsel, -, -, -, -, hle, habs, hgood, hcal, -⟩ := h
  have hc : s.cal = none := by simpa [hhalt] using hcal
  unfold State.timebaseSound
  rw [State.startTb_tb, State.startTb_cal, hc]
  cases hs : s.tb.selected with
  | none => exact absurd hs hsel
  | ext => simp [hle, habs, hgood]
  | int => simp [hle, habs, hgood]

/-- A sound timebase in HALT may have another source selected (R11). -/
theorem State.selectHalt_sound {s : State} (h : s.timebaseSound) (hhalt : s.tb.state = .halt) {src : Source}
    (hsrc : src = .ext ∨ src = .int) : (s.modTb (fun tb => { tb with selected := src })).timebaseSound := by
  obtain ⟨-, hnone, -, hhold, hphase, hle, habs, hgood, hcal, hticked⟩ := h
  have hf : s.tb.inForce = .none := hnone.mpr hhalt
  have hh : s.tb.holdover = false := by simpa [hf] using hhold
  have hsrc' : src ≠ .none := by rcases hsrc with rfl | rfl <;> decide
  exact ⟨hsrc', hnone, by simp [hf], by simp [hf, hh], hphase, hle, habs, hgood, hcal, hticked⟩

/-- The engine's rounds of a GATE STOP, an enable and a commit leave the timebase. -/
theorem EngineOnly.finishOpen (s : State) (g : Desc) : EngineOnly s (s.finishOpen g) := by
  unfold State.finishOpen
  dsimp only
  split
  · exact .modDesc s g _
  · exact .modDesc s g _
  · exact (EngineOnly.modDesc s g _).trans (.closeGate _ g _)
  · exact .modDesc s g _

theorem EngineOnly.finish (s : State) (g : Desc) : EngineOnly s (s.finish g) := by
  unfold State.finish
  split
  · exact .refl s
  · split
    · exact .refl s
    · exact .modDesc s g _
    · exact .modDesc s g _
    · exact .finishOpen s g
    · exact .modDesc s g _

theorem EngineOnly.abort (s : State) (g : Desc) : EngineOnly s (s.abort g) := by
  unfold State.abort
  split
  · exact .refl s
  · exact (EngineOnly.modDesc s g _).trans (.enterOff _ g)

theorem EngineOnly.commitWaiting (s : State) (g : Desc) : EngineOnly s (s.commitWaiting g) := by
  unfold State.commitWaiting
  dsimp only
  split
  · exact (EngineOnly.modDesc s g _).trans (.modDesc _ g _)
  · exact ((EngineOnly.modDesc s g _).trans (.modDesc _ g _)).trans (.judge _ g)

theorem EngineOnly.commitNow (s : State) (g : Desc) : EngineOnly s (s.commitNow g) := by
  unfold State.commitNow
  split
  · exact .modDesc s g _
  · exact .commitWaiting s g
  · exact .commitWaiting s g
  · exact .modDesc s g _
  · exact .modDesc s g _

theorem EngineOnly.enable (s : State) (g : Desc) : EngineOnly s (s.enable g) :=
  (EngineOnly.modDesc s g _).trans (.judge _ g)

theorem EngineOnly.forSlots {f : SlotId → State → State} (h : ∀ k u, EngineOnly u (f k u)) (s : State) (set : Byte) :
    EngineOnly s (s.forSlots set f) := by
  refine .forEight (fun k u => ?_) s
  split
  · exact h k u
  · exact .refl u

/-! ## Every row keeps the invariant -/

/-- A relock of TB SELECT onto the source that it selects (R11). -/
theorem State.selectRelock_sound {s : State} (h : s.timebaseSound) {src : Source} (hsrc : src = .ext ∨ src = .int) :
    ((s.modTb (fun tb => { tb with selected := src })).beginRelock src .select).timebaseSound := by
  obtain ⟨-, hticked, hcal⟩ := h.transit
  refine State.beginRelock_sound (u := s.modTb fun tb => { tb with selected := src }) ⟨?_, hticked, hcal⟩
    h.monitor ?_ _
  · rcases hsrc with rfl | rfl <;> exact Source.noConfusion
  · rcases hsrc with rfl | rfl
    · exact .inr ⟨rfl, rfl⟩
    · exact .inl rfl

theorem State.storeAux_tb (s : State) (role : AuxRole) (activeHigh : Bool) :
    (s.storeAux role activeHigh).tb = s.tb ∧ (s.storeAux role activeHigh).cal = s.cal := by
  unfold State.storeAux
  dsimp only
  rw [(EngineOnly.judgeAll _).tb, (EngineOnly.judgeAll _).cal]
  refine State.forChans_keeps (P := fun u => u.tb = s.tb ∧ u.cal = s.cal) (fun c v hv => ?_) ⟨rfl, rfl⟩
  split <;> exact hv

theorem State.timebaseSound.block {s t : State} (h : s.timebaseSound) (hb : BlockStep s t) : t.timebaseSound := by
  cases hb with
  | unchanged => exact h
  | clearStatus => exact h
  | restart => exact h
  | configure _ _ _ _ _ hhalt hsel => exact Timebase.configure_sound h hhalt hsel _ _ _ _
  | start hhalt => exact State.startTb_sound h hhalt
  | stop => exact State.enterHalt_sound h.transit h.monitor _
  | selectHalt src hhalt hsrc => exact State.selectHalt_sound h hhalt hsrc
  | relock src _ hsrc => exact State.selectRelock_sound h hsrc
  | leaveHoldover _ hforce =>
    obtain ⟨-, hnone, -, -, hphase, hle, habs, hgood, hcal, hticked⟩ := h
    exact ⟨Source.noConfusion, hnone, fun e => absurd e hforce,
      ⟨fun e => Bool.noConfusion e, fun e => Source.noConfusion e.1⟩, hphase, hle, habs, hgood, hcal, hticked⟩
  | storeAux role pol => exact h.congr (s.storeAux_tb role pol).1 (.inl (s.storeAux_tb role pol).2)
  | storeSettings c new =>
    unfold State.storeSettings
    refine State.timebaseSound.engine ?_ (.judgeAll _)
    exact h.congr (State.modChan_tb s c _) (.inl (State.modChan_cal s c _))
  | startCal _ hrun =>
    obtain ⟨hsel, hnone, hext, hhold, hphase, hle, habs, hgood, -, hticked⟩ := h
    exact ⟨hsel, hnone, hext, hhold, hphase, hle, habs, hgood, fun _ => hrun, hticked⟩
  | write => exact h
  | commit g => exact h.engine (.commitNow s g)
  | enable g => exact h.engine (.enable s g)
  | finish g => exact h.engine (.finish s g)
  | abort g => exact h.engine (.abort s g)
  | clearLost => exact h
  | hold => exact h.engine (.forSlots (fun k v => .modSlot v k _) s _)
  | release => exact h.engine (.forSlots (fun k v => .release v k) s _)
  | clearStats => exact h.engine (.forSlots (fun k v => .modSlot v k _) s _)
  | setStream => exact h.congr (State.forChans_modChan_tb s _) (.inl (State.forChans_modChan_cal s _))
  | clearStream => exact h
  | mask => exact h

theorem State.reset_timebaseSound : State.reset.timebaseSound := by
  unfold State.timebaseSound
  decide

theorem State.processEdge_tb (s : State) (input : PhysIn) (rising : Bool) (tick : Coarse) (bins : Vector Bin 4)
    (chans : List Chan) (takings : List (Chan × Desc)) :
    (s.processEdge input rising tick bins chans takings).tb = s.tb
      ∧ (s.processEdge input rising tick bins chans takings).cal = s.cal := by
  have deliver : ∀ u : State, (match input, s.aux.event rising with
      | .aux, some ev => u.deliver ev (s.sampleAt tick)
      | _, _ => u).tb = u.tb ∧ (match input, s.aux.event rising with
      | .aux, some ev => u.deliver ev (s.sampleAt tick)
      | _, _ => u).cal = u.cal := by
    intro u
    split
    · exact ⟨(EngineOnly.deliver u _ _).tb, (EngineOnly.deliver u _ _).cal⟩
    · exact ⟨rfl, rfl⟩
  have channels : ∀ (l : List Chan) (u : State),
      (l.foldl (fun v c => v.channelEdge c input rising tick bins[c]) u).tb = u.tb
        ∧ (l.foldl (fun v c => v.channelEdge c input rising tick bins[c]) u).cal = u.cal := by
    intro l
    induction l with
    | nil => exact fun u => ⟨rfl, rfl⟩
    | cons c l ih =>
      intro u
      have hc := EdgeOnly.channelEdge u c input rising tick bins[c]
      exact ⟨(ih _).1.trans hc.tb, (ih _).2.trans hc.cal⟩
  have takes := EngineOnly.foldl (f := fun w p =>
    State.taking w (fun c => s.stampTaken c input rising tick bins[c]) tick p)
    (fun u p => .taking u _ tick p)
  unfold State.processEdge
  dsimp only
  rw [(takes _ _).tb, (takes _ _).cal]
  exact ⟨(channels _ _).1.trans (deliver s).1, (channels _ _).2.trans (deliver s).2⟩

theorem State.endCal_timebase {s : State} (h : s.timebaseSound) (outcome : CalOutcome) :
    (s.endCal outcome).timebaseSound := h.congr (s.endCal_tb outcome) (.inr (s.endCal_cal outcome))

theorem State.takeHit_sound {s : State} (h : s.timebaseSound) (b : Bin) : (s.takeHit b).timebaseSound := by
  unfold State.takeHit
  split
  · next r _ =>
    have hit : (s.modChan r.chan (fun ch => ch.hit b)).timebaseSound := h.congr rfl (.inl rfl)
    dsimp only
    split
    · unfold State.judgeCal
      dsimp only
      split
      · refine State.endCal_timebase ?_ _
        unfold State.installTable
        exact hit.congr (State.modChan_tb _ r.chan _) (.inl (State.modChan_cal _ r.chan _))
      · exact State.endCal_timebase hit _
    · exact hit
  · exact h

theorem State.restartFull_tb (s : State) : s.restartFull.tb = Timebase.reset ∧ s.restartFull.cal = none := by
  unfold State.restartFull State.resetStore State.resetDescs State.mapChans
  dsimp only [State.modLink]
  rw [(EngineOnly.forEight (fun g u => .modDesc u g _) _).cal, State.forChans_modChan_cal, State.dropCal_cal]
  exact ⟨rfl, rfl⟩

theorem State.restartMeasure_tb (s : State) : s.restartMeasure.tb = s.tb ∧ s.restartMeasure.cal = none := by
  unfold State.restartMeasure State.resetStore State.resetDescs State.mapChans
  dsimp only [State.modLink]
  rw [(EngineOnly.forEight (fun g u => .modDesc u g _) _).tb,
    (EngineOnly.forEight (fun g u => .modDesc u g _) _).cal, State.forChans_modChan_tb, State.forChans_modChan_cal,
    State.dropCal_tb, State.dropCal_cal]
  exact ⟨rfl, rfl⟩

theorem State.restartNow_sound {s : State} (h : s.timebaseSound) (kind : RestartKind) :
    (s.restartNow kind).timebaseSound := by
  cases kind with
  | measure => exact h.congr s.restartMeasure_tb.1 (.inr s.restartMeasure_tb.2)
  | full =>
    obtain ⟨htb, hcal⟩ := s.restartFull_tb
    generalize hu : s.restartFull = u at htb hcal
    unfold State.restartNow
    rw [hu]
    exact State.reset_timebaseSound.congr htb (.inr hcal)

theorem State.timebaseSound.effect {i : Instr} (hi : i.payload = none) {s : State} (h : s.timebaseSound) :
    (i.effect s).timebaseSound := by
  match i, hi with
  | .powerOnReset, _ => exact State.reset_timebaseSound.congr rfl (.inl rfl)
  | .startUpEnd, _ =>
    dsimp only [Instr.effect]
    split
    · exact h.withMonitor rfl h.monitor rfl
    · exact h
  | .monitorWindowEnd, _ =>
    have hw : (s.modTb Timebase.newWindow).timebaseSound := h.withMonitor rfl h.monitor rfl
    dsimp only [Instr.effect]
    split
    · exact State.goodWindow_sound hw
    · exact State.monitorAbsent_sound hw
  | .starvation, _ =>
    exact State.monitorAbsent_sound (s := s.modTb (fun tb => { tb with windowStarved := true }))
      (h.withMonitor rfl h.monitor rfl)
  | .acquireEnd, _ =>
    dsimp only [Instr.effect]
    split
    · next hs =>
      obtain ⟨hsel, hnone, hext, hhold, -, hle, habs, hgood, hcal, -⟩ := h
      have hf : s.tb.inForce ≠ .none := fun e => by rw [hnone, hs] at e; cases e
      unfold State.timebaseSound
      rw [State.acquireDone_tb, State.acquireDone_cal]
      exact ⟨hsel, ⟨fun e => absurd e hf, fun e => by cases e⟩, hext, hhold, by simp, hle, habs, hgood,
        fun _ => rfl, fun _ => rfl⟩
    · exact h
  | .relockEnd, _ =>
    dsimp only [Instr.effect]
    split
    · next hs =>
      obtain ⟨hsel, hnone, hext, hhold, -, hle, habs, hgood, hcal, hticked⟩ := h
      have hf : s.tb.inForce ≠ .none := fun e => by rw [hnone, hs] at e; cases e
      exact ⟨hsel, ⟨fun e => absurd e hf, fun e => TbState.noConfusion e⟩, hext, hhold, by simp [State.postTimebase], hle,
        habs, hgood, fun _ => rfl, hticked⟩
    · exact h
  | .inputEdge input rising tick bins chans takings, _ =>
    have hl : ({ s with levels := s.levels.put input rising } : State).timebaseSound := h.congr rfl (.inl rfl)
    dsimp only [Instr.effect]
    split
    · obtain ⟨htb, hcal⟩ := State.processEdge_tb
        (({ s with levels := s.levels.put input rising } : State).advanceTo tick) input rising tick bins chans takings
      exact (hl.advanceTo tick).congr htb (.inl hcal)
    · exact hl
  | .holdoffExpiry c, _ => exact h.expiry (.holdoff c)
  | .deadTimeExpiry c, _ => exact h.expiry (.deadTime c)
  | .calHit tick b, _ =>
    dsimp only [Instr.effect]
    split
    · exact State.takeHit_sound (h.advanceTo tick) b
    · exact h
  | .calDeadline, _ => exact h.expiry .deadline
  | .gateNominalEnd g, _ => exact h.expiry (.nominalEnd g)
  | .gateTimeout g, _ => exact h.expiry (.timeout g)
  | .recordFormation g, _ => exact h.expiry (.record g)
  | .frameReceived _, _ =>
    dsimp only [Instr.effect]
    split
    · exact h.congr rfl (.inl rfl)
    · exact h
  | .receiveGapExpiry, _ => exact h.congr rfl (.inl rfl)
  | .linkBreak, _ =>
    obtain ⟨htb, hcal⟩ := s.restartFull_tb
    dsimp only [Instr.effect]
    generalize s.restartFull = u at htb hcal
    split
    · exact h
    · exact State.reset_timebaseSound.congr htb (.inr hcal)
  | .transmitEnd, _ =>
    dsimp only [Instr.effect]
    split
    · split
      · unfold State.frameDone
        dsimp only
        split
        · refine State.restartNow_sound ?_ _
          exact h.congr rfl (.inl rfl)
        · exact h.congr rfl (.inl rfl)
      · exact h
    · exact h
  | .lnkclkStop, _ => exact h.congr rfl (.inl rfl)
  | .lnkclkReturn, _ => exact h.congr rfl (.inl rfl)
  | .lnkRxReturnToMark, _ => exact h.congr rfl (.inl rfl)
  | .rstNRelease, _ =>
    dsimp only [Instr.effect]
    split
    · exact h.congr rfl (.inl rfl)
    · exact h
  | .referenceEdge, _ =>
    have hr : s.tb.referenceEdge = { s.tb with windowCount := s.tb.referenceEdge.windowCount
                                               dividerHalf := s.tb.referenceEdge.dividerHalf } := by
      unfold Timebase.referenceEdge
      split <;> rfl
    have hm : (s.modTb Timebase.referenceEdge).tb = s.tb.referenceEdge := rfl
    refine h.withMonitor (t := s.modTb Timebase.referenceEdge) ?_ ?_ rfl
    · rw [hm, hr]
    · rw [hm, hr]
      exact h.monitor

/-- Settles O56: the timebase is sound again after each block and each effect, whatever the part was doing. -/
theorem stepKeepsTimebaseSound : Obligations.StepKeepsTimebaseSound := by
  intro s t hs h
  refine step_keeps (P := State.timebaseSound) (fun _ _ hu => hu.congr rfl (.inl rfl)) (fun u hu => ?_)
    (fun i u v hu he => ?_) hs h
  · exact State.tick_keeps (fun _ w y hv => (hv.expire w y).arbitrate) (fun _ x hv => hv.atCount x) hu
  · exact exec_keeps (fun _ _ hv => hv.congr rfl (.inl rfl)) (fun _ hv => hv.arbitrate)
      (fun i p hp v hv hv' => hv'.block (block_step hp hv)) (fun i hi v hv => hv.effect hi) hu he

end Sys2Proof.Machine
end

section
/-!
Calibration tables: the default table and the table built from a histogram keep the law of R45, and a built entry is the
middle of its bin, rounded half up (R59, R66).
-/

namespace Sys2Proof.Machine

@[simp] theorem binVector_get (f : Nat → Nat) (b : Bin) : (binVector f)[b] = f b.val := by
  simp [binVector]

theorem hitsAt_get (h : Vector Nat 160) (b : Bin) : hitsAt h b.val = h[b] := by
  simp [hitsAt]

/-- The hits before a bin take in every bin below it. -/
theorem hitsBefore_add_hitsAt_le (h : Vector Nat 160) {a b : Nat} (hab : a < b) :
    hitsBefore h a + hitsAt h a ≤ hitsBefore h b := by
  have hmono : hitsBefore h (a + 1) ≤ hitsBefore h b := by
    have hsub : (h.toList.take (a + 1)).Sublist (h.toList.take b) := by
      rw [← Nat.min_eq_left (show a + 1 ≤ b from hab), ← List.take_take]
      exact List.take_sublist _ _
    exact hsub.sum_le_sum (fun _ _ => Nat.zero_le _)
  have hsucc : hitsBefore h (a + 1) = hitsBefore h a + hitsAt h a := by
    unfold hitsBefore hitsAt
    by_cases ha : a < h.toList.length
    · rw [List.take_succ_eq_append_getElem ha, List.sum_append, List.getD_eq_getElem _ _ ha]
      simp
    · rw [List.take_of_length_le (by omega), List.take_of_length_le (by omega),
        List.getD_eq_default _ _ (Nat.not_lt.mp ha), Nat.add_zero]
  omega

theorem roundHalfUp_mono {m n : Nat} (h : m ≤ n) (den : Nat) : roundHalfUp m den ≤ roundHalfUp n den :=
  Nat.div_le_div_right (by omega)

theorem builtEntry_le (h : Vector Nat 160) (span b : Nat) : builtEntry h span b ≤ 1023 := by
  unfold builtEntry
  split
  · exact Nat.min_le_left _ _
  · exact Nat.le_refl _

theorem builtEntry_mono (h : Vector Nat 160) (span : Nat) {a b : Nat} (hab : a ≤ b) :
    builtEntry h span a ≤ builtEntry h span b := by
  rcases Nat.eq_or_lt_of_le hab with rfl | hlt
  · exact Nat.le_refl _
  by_cases hb : b < span
  · have hsum := hitsBefore_add_hitsAt_le h hlt
    rw [builtEntry, builtEntry, if_pos (hlt.trans hb), if_pos hb]
    exact min_le_min_left _ (roundHalfUp_mono (by omega) _)
  · rw [builtEntry.eq_def h span b, if_neg hb]
    exact builtEntry_le h span a

theorem builtTable_law (h : Vector Nat 160) (span : Nat) : tableLaw (builtTable h span) span := by
  unfold builtTable
  refine ⟨fun b => ?_, fun a b hab => ?_, fun b hb => ?_⟩
  · rw [binVector_get]
    exact builtEntry_le h span b
  · rw [binVector_get, binVector_get]
    exact builtEntry_mono h span hab
  · rw [binVector_get, builtEntry, if_neg (Nat.not_lt.mpr hb)]

/-- The default table keeps the law with its span of 128 (R59). -/
theorem defaultTable_law : tableLaw defaultTable 128 := by
  unfold defaultTable defaultEntry
  refine ⟨fun b => ?_, fun a b hab => ?_, fun b hb => ?_⟩
  · rw [binVector_get]
    split <;> omega
  · have hab' : a.val ≤ b.val := hab
    rw [binVector_get, binVector_get]
    split <;> split <;> omega
  · rw [binVector_get, if_neg (Nat.not_lt.mpr hb)]

/-- Settles O23: the law of `builtTable_law`, and the bounds of `roundHalfUp_bounds` at the divisor 131,072. -/
theorem builtTableKeepsTheLaw : Obligations.BuiltTableKeepsTheLaw := by
  intro h span _
  refine ⟨builtTable_law h span, fun b hb => ⟨roundHalfUp (2048 * hitsBefore h b + 1024 * hitsAt h b) 131072, ?_, ?_⟩⟩
  · rw [builtTable, binVector_get, builtEntry, if_pos hb]
  · rw [hitsAt_get]
    exact roundHalfUp_bounds (2048 * hitsBefore h b + 1024 * h[b]) (by decide : 0 < 131072)

end Sys2Proof.Machine
end

section
/-!
The invariant of the calibration: every table keeps its law, every histogram agrees with its attempt, and the outcome
IN_PROGRESS belongs to the channel in calibration (R45, R46, R57, R58, R59). Whatever does not calibrate only ever leaves a
channel's attempt and turns a sound channel into a sound one (`CalKept`); hits, ends and installed tables come one by one.
-/

namespace Sys2Proof.Machine

/-! ## What leaves the calibrations -/

/-- From `s` to `t` no calibration has begun, moved on or ended, and a sound channel stays sound. -/
structure CalKept (s t : State) : Prop where
  cal : t.cal = s.cal
  attempt : ∀ c, (t.chan c).attempt = (s.chan c).attempt
  sound : ∀ c, (s.chan c).calSound → (t.chan c).calSound

theorem CalKept.refl (s : State) : CalKept s s := ⟨rfl, fun _ => rfl, fun _ h => h⟩

theorem CalKept.trans {s t u : State} (h : CalKept s t) (k : CalKept t u) : CalKept s u :=
  ⟨k.cal.trans h.cal, fun c => (k.attempt c).trans (h.attempt c), fun c hc => k.sound c (h.sound c hc)⟩

theorem CalKept.ofEngine {s t : State} (h : EngineOnly s t) : CalKept s t :=
  ⟨h.cal, fun c => by rw [h.chan c], fun c hc => by rw [h.chan c]; exact hc⟩

theorem CalKept.ofChans {s t : State} (hcal : t.cal = s.cal) (hchans : t.chans = s.chans) : CalKept s t :=
  ⟨hcal, fun c => by simp [State.chan, hchans], fun c hc => by simpa [State.chan, hchans] using hc⟩

theorem CalKept.modChan (s : State) (c : Chan) {f : Channel → Channel} (ha : ∀ ch, (f ch).attempt = ch.attempt)
    (hf : ∀ ch : Channel, ch.calSound → (f ch).calSound) : CalKept s (s.modChan c f) := by
  refine ⟨rfl, fun d => ?_, fun d hd => ?_⟩ <;> rw [State.chan_modChan] <;> split
  · next e => rw [e, ha]
  · rfl
  · next e => exact hf _ (e ▸ hd)
  · exact hd

theorem CalKept.foldl {α : Type} {f : State → α → State} (h : ∀ u a, CalKept u (f u a)) :
    ∀ (l : List α) (s : State), CalKept s (l.foldl f s)
  | [], s => .refl s
  | a :: l, s => (h s a).trans (CalKept.foldl h l _)

theorem CalKept.forChans {f : Chan → State → State} (h : ∀ c u, CalKept u (f c u)) (s : State) :
    CalKept s (s.forChans f) := .foldl (fun u c => h c u) allChans s

theorem CalKept.calibrates {s t : State} (h : CalKept s t) (c : Chan) : t.calibrates c = s.calibrates c := by
  unfold State.calibrates
  rw [h.cal]

/-- What `State.calSound` says but for the hits of the attempt in progress: it holds right after the last hit too. -/
def State.calLawful (s : State) : Prop :=
  ∀ c : Chan, (s.chan c).calSound ∧ ((s.chan c).attempt.outcome = .inProgress ↔ s.calibrates c = true)

theorem State.calSound.lawful {s : State} (h : s.calSound) : s.calLawful := fun c => ⟨(h c).1, (h c).2.1⟩

theorem State.calSound.kept {s t : State} (h : s.calSound) (k : CalKept s t) : t.calSound := by
  intro c
  obtain ⟨hc, hp, hh⟩ := h c
  rw [k.attempt c, k.calibrates c]
  exact ⟨k.sound c hc, hp, hh⟩

theorem State.calLawful.kept {s t : State} (h : s.calLawful) (k : CalKept s t) : t.calLawful := by
  intro c
  obtain ⟨hc, hp⟩ := h c
  rw [k.attempt c, k.calibrates c]
  exact ⟨k.sound c hc, hp⟩

/-- With no calibration in progress the two say the same. -/
theorem State.calLawful.sound {s : State} (h : s.calLawful) (hcal : s.cal = none) : s.calSound := by
  intro c
  have hn : s.calibrates c = false := by
    unfold State.calibrates
    rw [hcal]
  exact ⟨(h c).1, (h c).2, fun e => absurd (hn.symm.trans e) Bool.false_ne_true⟩

/-! ## Edges -/

theorem CalKept.countEdge (s : State) (c : Chan) (tick : Coarse) : CalKept s (s.countEdge c tick) := by
  unfold State.countEdge
  refine CalKept.trans ?_ (.ofEngine (.forEight (fun g u => .modDesc u g _) _))
  exact .modChan s c (fun _ => by rfl) (fun _ hc => by exact hc)

theorem satInc_le {top v : Nat} (h : v ≤ top) : satInc top v ≤ top := by
  unfold satInc
  split <;> omega

/-- A stamp counts itself out of span at most, and can only spend an advice (R46, R71). -/
theorem Channel.calSound.stamped {ch : Channel} (h : ch.calSound) (tick : Coarse) (b : Bin) :
    (ch.stamped tick b).calSound := by
  obtain ⟨ht, hh, ho, hc, hd⟩ := h
  refine ⟨ht, hh, ?_, hc, fun e => ⟨(hd e).1, ?_⟩⟩
  · dsimp only [Channel.stamped]
    split
    · exact satInc_le (top := 65535) ho
    · exact ho
  · show (ch.adviceArmed && _) = false
    rw [(hd e).2, Bool.false_and]

theorem CalKept.noteStamp (s : State) (st : Stamp) (b : Bin) : CalKept s (s.noteStamp st b) := by
  have hs : CalKept s (s.modChan st.chan (fun ch => ch.stamped st.coarse b)) :=
    .modChan s st.chan (fun _ => rfl) (fun _ h => h.stamped st.coarse b)
  unfold State.noteStamp
  dsimp only
  have hv : CalKept s (if (s.chan st.chan).advises b = true then
      (s.modChan st.chan (fun ch => ch.stamped st.coarse b)).post (.advise st.chan)
      else s.modChan st.chan (fun ch => ch.stamped st.coarse b)) := by
    split
    · exact hs.trans (.ofEngine (.post _ _))
    · exact hs
  split
  · exact hv.trans (.ofChans rfl rfl)
  · exact hv

theorem CalKept.channelEdge (s : State) (c : Chan) (input : PhysIn) (rising : Bool) (tick : Coarse) (b : Bin) :
    CalKept s (s.channelEdge c input rising tick b) := by
  unfold State.channelEdge
  split
  · split
    · exact (CalKept.countEdge s c tick).trans (.noteStamp _ _ b)
    · exact .countEdge s c tick
  · exact .refl s

/-- What the AUX event of an edge does before the channels take it: deliveries, which are the engine's. -/
theorem EngineOnly.auxEvent (s u : State) (input : PhysIn) (rising : Bool) (tick : Coarse) :
    EngineOnly u (match input, s.aux.event rising with
      | .aux, some ev => u.deliver ev (s.sampleAt tick)
      | _, _ => u) := by
  split
  · exact .deliver u _ _
  · exact .refl u

theorem CalKept.processEdge (s : State) (input : PhysIn) (rising : Bool) (tick : Coarse) (bins : Vector Bin 4)
    (chans : List Chan) (takings : List (Chan × Desc)) :
    CalKept s (s.processEdge input rising tick bins chans takings) := by
  unfold State.processEdge
  dsimp only
  refine (CalKept.ofEngine (.auxEvent s s input rising tick)).trans ?_
  refine CalKept.trans ?_ (.ofEngine (.foldl (fun u p => .taking u _ tick p) _ _))
  exact .foldl (fun u c => .channelEdge u c input rising tick bins[c]) _ _

/-! ## Hits, ends and installed tables -/

/-- The end of a calibration gives the attempt of its channel an outcome, and leaves the other channels (R67 to R70). -/
theorem State.dropCal_chan (s : State) (outcome : CalOutcome) (c : Chan) :
    (s.dropCal outcome).chan c =
      if s.calibrates c then { s.chan c with attempt := { (s.chan c).attempt with outcome := outcome } }
      else s.chan c := by
  unfold State.dropCal State.calibrates
  cases s.cal with
  | none => simp
  | some r =>
    have hm := s.chan_modChan r.chan c (fun ch => { ch with attempt := { ch.attempt with outcome := outcome } })
    simp only [decide_eq_true_eq]
    by_cases e : c = r.chan
    · subst e
      rw [if_pos rfl] at hm ⊢
      exact hm
    · rw [if_neg e] at hm
      rw [if_neg fun x => e x.symm]
      exact hm

theorem State.calibrates_of_none {s : State} (h : s.cal = none) (c : Chan) : s.calibrates c = false := by
  unfold State.calibrates
  rw [h]

theorem State.dropCal_lawful {s : State} (h : s.calLawful) {outcome : CalOutcome} (ho : outcome ≠ .inProgress) :
    (s.dropCal outcome).calLawful := by
  intro c
  obtain ⟨hc, hp⟩ := h c
  rw [State.calibrates_of_none (State.dropCal_cal s outcome), State.dropCal_chan]
  split
  · exact ⟨hc, fun x => absurd x ho, fun x => absurd x Bool.false_ne_true⟩
  · next hn => exact ⟨hc, fun x => absurd (hp.mp x) hn, fun x => absurd x Bool.false_ne_true⟩

theorem State.endCal_sound {s : State} (h : s.calLawful) {outcome : CalOutcome} (ho : outcome ≠ .inProgress) :
    (s.endCal outcome).calSound := by
  have hd := State.dropCal_lawful h ho
  unfold State.endCal
  split
  · next hc => exact h.sound hc
  · refine (hd.kept ?_).sound ?_
    · exact .ofEngine ((EngineOnly.post _ _).trans (.judgeAll _))
    · rw [(EngineOnly.judgeAll _).cal, State.post_cal, State.dropCal_cal]

theorem Vector.sum_set_succ (h : Vector Nat 160) (b : Bin) :
    (h.set b.val (h[b] + 1) b.isLt).toList.sum = h.toList.sum + 1 := by
  have hlt : b.val < h.toList.length := by simp
  rw [Vector.toList_set, List.sum_set, if_pos hlt, ← List.sum_take_add_sum_drop h.toList b.val,
    List.drop_eq_getElem_cons hlt, List.sum_cons]
  simp only [Fin.getElem_fin, Vector.getElem_toList]
  omega

theorem Vector.get_set_bin (h : Vector Nat 160) (a b : Bin) (v : Nat) :
    (h.set b.val v b.isLt)[a] = if a = b then v else h[a] := by
  simp only [Fin.getElem_fin, Vector.getElem_set, Fin.ext_iff, eq_comm]

/-- A hit keeps the histogram in agreement with its attempt, as long as there is room for it (R57, R62). -/
theorem histogramLaw.hit {ch : Channel} (h : histogramLaw ch.histogram ch.attempt) (hlt : ch.attempt.hits < 65536)
    (b : Bin) : histogramLaw (ch.hit b).histogram (ch.hit b).attempt := by
  obtain ⟨hsum, -, hspan, hbelow, htop⟩ := h
  have hb := b.isLt
  refine ⟨?_, hlt, max_le hspan hb, fun a ha => ?_, fun a ha => ?_⟩
  · exact (Vector.sum_set_succ ch.histogram b).trans (by rw [hsum]; rfl)
  · have ha' : 0 < (ch.histogram.set b.val (ch.histogram[b] + 1) b.isLt)[a] := ha
    rw [Vector.get_set_bin] at ha'
    show a.val < max ch.attempt.spanFound (b.val + 1)
    split at ha'
    · next e => rw [e]; omega
    · have := hbelow a ha'
      omega
  · show 0 < (ch.histogram.set b.val (ch.histogram[b] + 1) b.isLt)[a]
    have ha' : a.val + 1 = max ch.attempt.spanFound (b.val + 1) := ha
    rw [Vector.get_set_bin]
    split
    · exact Nat.succ_pos _
    · next e =>
      have hne : a.val ≠ b.val := fun x => e (Fin.ext x)
      exact htop a (by omega)

/-- The checks of R65 leave a span of 64 to 159 to an accepted histogram. -/
theorem span_of_success {h : Vector Nat 160} {a : Attempt} (hl : histogramLaw h a)
    (hj : judgeHistogram h a.spanFound = .success) : 64 ≤ a.spanFound ∧ a.spanFound ≤ 159 := by
  obtain ⟨-, -, hspan, -, htop⟩ := hl
  unfold judgeHistogram at hj
  split at hj
  · cases hj
  · next hshort =>
    split at hj
    · cases hj
    · next h64 =>
      refine ⟨by omega, ?_⟩
      by_contra hgt
      refine hshort (decide_eq_true ?_)
      have hlast := hitsAt_get h 159
      have hpos := htop 159 (by show 159 + 1 = a.spanFound; omega)
      exact hlast ▸ hpos

theorem State.judgeCal_sound {s : State} (h : s.calLawful) (c : Chan) : (s.judgeCal c).calSound := by
  have hnot : ∀ (v : Vector Nat 160) (n : Nat), judgeHistogram v n ≠ .inProgress := by
    intro v n
    unfold judgeHistogram
    repeat' split
    all_goals exact CalOutcome.noConfusion
  unfold State.judgeCal
  dsimp only
  split
  · next hj =>
    refine State.endCal_sound ?_ CalOutcome.noConfusion
    have hinst : ∀ d, (s.installTable c).chan d = if d = c then { s.chan c with
        table := builtTable (s.chan c).histogram (s.chan c).attempt.spanFound, calibrated := true
        span := (s.chan c).attempt.spanFound, outOfSpan := 0, adviceArmed := true } else s.chan d :=
      fun d => s.chan_modChan c d _
    intro d
    obtain ⟨hd, hp⟩ := h d
    have hcalib : (s.installTable c).calibrates d = s.calibrates d := rfl
    rw [hcalib, hinst d]
    split
    · next e =>
      subst e
      obtain ⟨-, hh, -, -, -⟩ := hd
      exact ⟨⟨builtTable_law _ _, hh, Nat.zero_le _, fun _ => span_of_success hh hj, fun e => Bool.noConfusion e⟩, hp⟩
    · exact ⟨hd, hp⟩
  · next hj => exact State.endCal_sound h (hnot _ _)

theorem State.takeHit_calSound {s : State} (h : s.calSound) (b : Bin) : (s.takeHit b).calSound := by
  unfold State.takeHit
  split
  · next r hr =>
    have hcalib : s.calibrates r.chan = true := by unfold State.calibrates; rw [hr]; exact decide_eq_true rfl
    have hlt := (h r.chan).2.2 hcalib
    have hchan : ∀ d, (s.modChan r.chan (fun ch => ch.hit b)).chan d =
        if d = r.chan then (s.chan r.chan).hit b else s.chan d := fun d => s.chan_modChan r.chan d _
    have hkeep : ∀ d, (s.modChan r.chan (fun ch => ch.hit b)).calibrates d = s.calibrates d := fun _ => rfl
    have hlaw : (s.modChan r.chan (fun ch => ch.hit b)).calLawful := by
      intro d
      obtain ⟨hd, hp, -⟩ := h d
      rw [hkeep d, hchan d]
      split
      · next e =>
        subst e
        obtain ⟨ht, hh, hrest⟩ := hd
        exact ⟨⟨ht, hh.hit hlt b, hrest⟩, hp⟩
      · exact ⟨hd, hp⟩
    dsimp only
    split
    · exact State.judgeCal_sound hlaw r.chan
    · next hroom =>
      intro d
      refine ⟨(hlaw d).1, (hlaw d).2, fun hd => ?_⟩
      have hdr : d = r.chan := by
        rw [hkeep d] at hd
        unfold State.calibrates at hd
        rw [hr] at hd
        exact (of_decide_eq_true hd).symm
      subst hdr
      exact Nat.lt_of_not_le hroom
  · exact h

/-- An empty histogram agrees with an attempt that has no hit (R61). -/
theorem emptyHistogram_law {a : Attempt} (hhits : a.hits = 0) (hspan : a.spanFound = 0) :
    histogramLaw emptyHistogram a := by
  have hempty : ∀ b : Bin, emptyHistogram[b] = 0 := fun b => binVector_get _ b
  have hsum : emptyHistogram.toList.sum = 0 := by
    show ((List.range 160).map (fun _ => 0)).sum = 0
    rw [List.map_const', List.sum_replicate, smul_zero]
  unfold histogramLaw
  rw [hhits, hspan]
  refine ⟨hsum, Nat.zero_le _, Nat.zero_le _, fun b hb => ?_, fun b hb => absurd hb (Nat.succ_ne_zero _)⟩
  rw [hempty] at hb
  exact absurd hb (Nat.lt_irrefl 0)

/-- An accepted CALIBRATE begins with an empty histogram, where no calibration was in progress (R61). -/
theorem State.startCal_sound {s : State} (h : s.calSound) (hcal : s.cal = none) (c : Chan) : (s.startCal c).calSound := by
  have hchan : ∀ d, (s.startCal c).chan d = if d = c then (s.chan c).startAttempt else s.chan d :=
    fun d => s.chan_modChan c d _
  intro d
  obtain ⟨hd, hp, hh⟩ := h d
  have hcalib : (s.startCal c).calibrates d = decide (c = d) := rfl
  have hn : s.calibrates d = false := by unfold State.calibrates; rw [hcal]
  rw [hcalib, hchan d]
  split
  · next e =>
    subst e
    obtain ⟨ht, -, hrest⟩ := hd
    exact ⟨⟨ht, emptyHistogram_law rfl rfl, hrest⟩, by simp [Channel.startAttempt], fun _ => Nat.zero_lt_succ 65535⟩
  · next e =>
    rw [hn] at hp
    have he : decide (c = d) = false := decide_eq_false fun x => e x.symm
    rw [he]
    exact ⟨hd, hp, fun x => Bool.noConfusion x⟩

/-! ## The timebase's transitions -/

theorem CalKept.clearDead (s : State) :
    CalKept s (s.forChans (fun c w => w.modChan c (fun ch => { ch with deadEnd := none }))) :=
  .forChans (fun c u => .modChan u c (fun _ => by rfl) (fun _ hc => by exact hc)) s

theorem State.beginRelock_calSound {s : State} (h : s.calSound) (target : Source) (cause : TbCause) :
    (s.beginRelock target cause).calSound := by
  unfold State.beginRelock
  dsimp only
  refine State.calSound.kept ?_ (.ofEngine (.gatherFlags _))
  have hu : ((s.modTb (fun tb => { tb with
      state := .relock, inForce := target, holdover := holdoverOf tb.selected target
      phaseTimer := some Config.relockCycles })).postTimebase cause).calSound := h.kept (.ofChans rfl rfl)
  split
  · exact State.endCal_sound hu.lawful CalOutcome.noConfusion
  · exact hu

theorem State.enterHalt_calSound {s : State} (h : s.calSound) (cause : TbCause) : (s.enterHalt cause).calSound := by
  unfold State.enterHalt
  dsimp only
  have hu : ((s.modTb (fun tb => { tb with
      state := .halt, inForce := .none, holdover := false, phaseTimer := none })).postTimebase cause).calSound :=
    h.kept (.ofChans rfl rfl)
  have hv := hu.kept (.clearDead _)
  have halts (w : State) (hw : w.calSound) : (if s.tb.counting then w.haltDescs else w).calSound := by
    split
    · exact hw.kept (.ofEngine (.haltDescs w))
    · exact hw
  refine halts _ ?_
  split
  · exact State.endCal_sound hv.lawful CalOutcome.noConfusion
  · exact hv

theorem State.lose_calSound {s : State} (h : s.calSound) : s.lose.calSound := by
  unfold State.lose
  split
  · split
    · exact h
    · exact State.enterHalt_calSound h _
    · exact h.kept (.ofChans rfl rfl)
    · exact State.beginRelock_calSound h _ _
  · exact h

theorem State.monitorAbsent_calSound {s : State} (h : s.calSound) : s.monitorAbsent.calSound := by
  have hu : (s.modTb (fun tb => { tb with monitor := .absent, runCount := 0 })).calSound := h.kept (.ofChans rfl rfl)
  unfold State.monitorAbsent
  dsimp only
  split
  · exact State.lose_calSound hu
  · exact hu

theorem State.goodWindow_calSound {s : State} (h : s.calSound) : s.goodWindow.calSound := by
  unfold State.goodWindow
  split
  · exact h.kept (.ofChans rfl rfl)
  · split
    · exact h.kept (.ofChans rfl rfl)
    · have hu : (s.modTb (fun tb => { tb with monitor := .good, runCount := Config.goodRun })).calSound :=
        h.kept (.ofChans rfl rfl)
      unfold State.monitorGood
      dsimp only
      split
      · exact State.beginRelock_calSound hu _ _
      · exact hu
  · exact h

/-! ## Restarts -/

theorem CalKept.mapChans (s : State) {f : Chan → Channel → Channel} (ha : ∀ c ch, (f c ch).attempt = ch.attempt)
    (hf : ∀ c (ch : Channel), ch.calSound → (f c ch).calSound) : CalKept s (s.mapChans f) :=
  .forChans (fun c u => .modChan u c (ha c) (hf c)) s

/-- The engine's part of a restart, and the store's, leave the calibrations. -/
theorem CalKept.resetDescs (s : State) (f : Descriptor → Descriptor) : CalKept s (s.resetDescs f).resetStore := by
  have h : CalKept s (s.resetDescs f) := .ofEngine (.forEight (fun g u => .modDesc u g f) s)
  exact h.trans (.ofChans rfl rfl)

theorem State.dropCal_sound {s : State} (h : s.calSound) {outcome : CalOutcome} (ho : outcome ≠ .inProgress) :
    (s.dropCal outcome).calSound := (State.dropCal_lawful h.lawful ho).sound (State.dropCal_cal _ _)

theorem State.restartMeasure_calSound {s : State} (h : s.calSound) : s.restartMeasure.calSound := by
  have hm : ((s.dropCal .restart).mapChans (fun _ ch => ch.measureReset)).calSound :=
    (State.dropCal_sound h CalOutcome.noConfusion).kept (.mapChans _ (fun _ _ => by rfl) (fun _ _ hc => by exact hc))
  unfold State.restartMeasure
  generalize (s.dropCal .restart).mapChans (fun _ ch => ch.measureReset) = m at hm ⊢
  have hr := hm.kept (.resetDescs m (fun d => Descriptor.idle d.staged d.active))
  dsimp only
  generalize State.resetStore _ = v at hr ⊢
  exact hr.kept (.ofChans rfl rfl)

theorem State.restartFull_calSound {s : State} (h : s.calSound) : s.restartFull.calSound := by
  have hm : ((s.dropCal .restart).mapChans (fun c ch => ch.fullReset c)).calSound :=
    (State.dropCal_sound h CalOutcome.noConfusion).kept (.mapChans _ (fun _ _ => by rfl) (fun _ _ hc => by exact hc))
  unfold State.restartFull
  generalize (s.dropCal .restart).mapChans (fun c ch => ch.fullReset c) = m at hm ⊢
  have hr := hm.kept (.resetDescs m (fun _ => Descriptor.reset))
  dsimp only
  generalize State.resetStore _ = v at hr ⊢
  exact hr.kept (.ofChans rfl rfl)

theorem State.restartNow_calSound {s : State} (h : s.calSound) (kind : RestartKind) : (s.restartNow kind).calSound := by
  cases kind with
  | measure => exact State.restartMeasure_calSound h
  | full =>
    have hf := State.restartFull_calSound h
    unfold State.restartNow
    generalize s.restartFull = u at hf
    exact hf.kept (.ofChans rfl rfl)

theorem Channel.reset_calSound (c : Chan) : (Channel.reset c).calSound := by
  exact ⟨defaultTable_law, emptyHistogram_law rfl rfl, Nat.zero_le _, fun e => Bool.noConfusion e, fun _ => ⟨rfl, rfl⟩⟩

theorem State.reset_chan (c : Chan) : State.reset.chan c = Channel.reset c := by fin_cases c <;> rfl

theorem State.reset_calSound : State.reset.calSound := by
  intro c
  rw [State.reset_chan]
  exact ⟨Channel.reset_calSound c, ⟨fun e => CalOutcome.noConfusion e, fun e => Bool.noConfusion e⟩,
    fun e => Bool.noConfusion e⟩

/-! ## Every row keeps the invariant -/

theorem State.calSound.arbitrate {s : State} (h : s.calSound) : s.arbitrate.calSound :=
  h.kept (.ofChans s.arbitrate_cal s.arbitrate_chans)

theorem State.calSound.atCount {s : State} (h : s.calSound) (x : Coarse) : (s.atCount x).calSound :=
  h.kept (.ofChans rfl rfl)

/-- An expiry is the engine's, but for the two that make a channel's wait idle and the calibration deadline (R7). -/
theorem EngineOnly.nominalEnd (s : State) (g : Desc) (x : Coarse) : EngineOnly s (s.nominalEnd g x) := by
  unfold State.nominalEnd
  split
  · exact .modDesc s g _
  · split
    · exact .closeGate s g _
    · exact .refl s

theorem EngineOnly.timeout (s : State) (g : Desc) (x : Coarse) : EngineOnly s (s.timeout g x) := by
  unfold State.timeout
  split
  · exact ((EngineOnly.modDesc s g _).trans (.postGate _ g _)).trans (.judge _ g)
  · exact .closeGate s g _
  · exact .closeGate s g _
  · exact .refl s

theorem State.calSound.expire {s : State} (h : s.calSound) (w : Wait) (x : Coarse) : (s.expire w x).calSound := by
  cases w with
  | holdoff c =>
    show (s.modChan c (fun ch => { ch with holdoffEnd := none })).calSound
    exact h.kept (.modChan s c (fun _ => by rfl) (fun _ hc => by exact hc))
  | deadTime c =>
    show (s.modChan c (fun ch => { ch with deadEnd := none })).calSound
    exact h.kept (.modChan s c (fun _ => by rfl) (fun _ hc => by exact hc))
  | deadline => exact State.endCal_sound h.lawful CalOutcome.noConfusion
  | nominalEnd g => exact h.kept (.ofEngine (.nominalEnd s g x))
  | timeout g => exact h.kept (.ofEngine (.timeout s g x))
  | record g => exact h.kept (.ofEngine (.formation s g))

theorem State.calSound.advanceTo {s : State} (h : s.calSound) (x : Coarse) : (s.advanceTo x).calSound :=
  State.advanceTo_keeps (fun _ w y hu => (hu.expire w y).arbitrate) (fun _ y hu => hu.atCount y) x h

theorem State.calSound.expiry {s : State} (h : s.calSound) (w : Wait) : (s.expiry w).calSound :=
  State.expiry_keeps (fun _ v y hu => hu.expire v y) (fun _ hu => hu.arbitrate) (fun _ y hu => hu.atCount y) h w

theorem CalKept.storeAux (s : State) (role : AuxRole) (activeHigh : Bool) : CalKept s (s.storeAux role activeHigh) := by
  have h : CalKept s { s with aux := { role := role, activeHigh := activeHigh } } := .ofChans rfl rfl
  unfold State.storeAux
  dsimp only
  refine (h.trans (.forChans (fun c v => ?_) _)).trans (.ofEngine (.judgeAll _))
  split
  · exact .refl v
  · exact .modChan v c (fun _ => by rfl) (fun _ hc => by exact hc)

theorem State.calSound.block {s t : State} (h : s.calSound) (hb : BlockStep s t) : t.calSound := by
  cases hb with
  | unchanged => exact h
  | clearStatus => exact h
  | restart => exact h
  | configure => exact h.kept (.ofChans rfl rfl)
  | start =>
    unfold State.startTb
    dsimp only
    refine State.calSound.kept ?_ (.forChans (fun c u => .modChan u c (fun _ => by rfl) (fun _ hc => by exact hc)) _)
    exact h.kept (.ofChans rfl rfl)
  | stop => exact State.enterHalt_calSound h _
  | selectHalt => exact h.kept (.ofChans rfl rfl)
  | relock =>
    refine State.beginRelock_calSound ?_ _ _
    exact h.kept (.ofChans rfl rfl)
  | leaveHoldover => exact h.kept (.ofChans rfl rfl)
  | storeAux role pol => exact h.kept (.storeAux s role pol)
  | storeSettings c new =>
    unfold State.storeSettings
    refine State.calSound.kept ?_ (.ofEngine (.judgeAll _))
    exact h.kept (.modChan s c (fun _ => by rfl) (fun _ hc => by exact hc))
  | startCal c _ hfree =>
    have hnone : s.cal = none := by
      cases hc : s.cal with
      | none => rfl
      | some r => exact absurd (.inl (by rw [hc]; rfl)) hfree
    exact State.startCal_sound h hnone c
  | write => exact h
  | commit g => exact h.kept (.ofEngine (.commitNow s g))
  | enable g => exact h.kept (.ofEngine (.enable s g))
  | finish g => exact h.kept (.ofEngine (.finish s g))
  | abort g => exact h.kept (.ofEngine (.abort s g))
  | clearLost => exact h
  | hold => exact h.kept (.ofEngine (.forSlots (fun k v => .modSlot v k _) s _))
  | release => exact h.kept (.ofEngine (.forSlots (fun k v => .release v k) s _))
  | clearStats => exact h.kept (.ofEngine (.forSlots (fun k v => .modSlot v k _) s _))
  | setStream => exact h.kept (.forChans (fun c u => .modChan u c (fun _ => by rfl) (fun _ hc => by exact hc)) s)
  | clearStream => exact h
  | mask => exact h

theorem State.calSound.effect {i : Instr} (hi : i.payload = none) {s : State} (h : s.calSound) :
    (i.effect s).calSound := by
  match i, hi with
  | .powerOnReset, _ => exact State.reset_calSound.kept (.ofChans rfl rfl)
  | .startUpEnd, _ =>
    dsimp only [Instr.effect]
    split
    · exact h.kept (.ofChans rfl rfl)
    · exact h
  | .monitorWindowEnd, _ =>
    have hw : (s.modTb Timebase.newWindow).calSound := h.kept (.ofChans rfl rfl)
    dsimp only [Instr.effect]
    split
    · exact State.goodWindow_calSound hw
    · exact State.monitorAbsent_calSound hw
  | .starvation, _ =>
    exact State.monitorAbsent_calSound (s := s.modTb (fun tb => { tb with windowStarved := true }))
      (h.kept (.ofChans rfl rfl))
  | .acquireEnd, _ =>
    dsimp only [Instr.effect]
    split
    · unfold State.acquireDone
      refine State.calSound.kept ?_ (.ofEngine (.judgeAll _))
      exact h.kept (.ofChans rfl rfl)
    · exact h
  | .relockEnd, _ =>
    dsimp only [Instr.effect]
    split
    · exact h.kept (.ofChans rfl rfl)
    · exact h
  | .inputEdge input rising tick bins chans takings, _ =>
    have hl : ({ s with levels := s.levels.put input rising } : State).calSound := h.kept (.ofChans rfl rfl)
    dsimp only [Instr.effect]
    split
    · exact (hl.advanceTo tick).kept (.processEdge _ input rising tick bins chans takings)
    · exact hl
  | .holdoffExpiry c, _ => exact h.expiry (.holdoff c)
  | .deadTimeExpiry c, _ => exact h.expiry (.deadTime c)
  | .calHit tick b, _ =>
    dsimp only [Instr.effect]
    split
    · exact State.takeHit_calSound (h.advanceTo tick) b
    · exact h
  | .calDeadline, _ => exact h.expiry .deadline
  | .gateNominalEnd g, _ => exact h.expiry (.nominalEnd g)
  | .gateTimeout g, _ => exact h.expiry (.timeout g)
  | .recordFormation g, _ => exact h.expiry (.record g)
  | .frameReceived _, _ =>
    dsimp only [Instr.effect]
    split
    · exact h.kept (.ofChans rfl rfl)
    · exact h
  | .receiveGapExpiry, _ => exact h.kept (.ofChans rfl rfl)
  | .linkBreak, _ =>
    have hf := State.restartFull_calSound h
    dsimp only [Instr.effect]
    generalize s.restartFull = u at hf
    split
    · exact h
    · exact hf.kept (.ofChans rfl rfl)
  | .transmitEnd, _ =>
    dsimp only [Instr.effect]
    split
    · split
      · unfold State.frameDone
        dsimp only
        split
        · refine State.restartNow_calSound ?_ _
          exact h.kept (.ofChans rfl rfl)
        · exact h.kept (.ofChans rfl rfl)
      · exact h
    · exact h
  | .lnkclkStop, _ => exact h.kept (.ofChans rfl rfl)
  | .lnkclkReturn, _ => exact h.kept (.ofChans rfl rfl)
  | .lnkRxReturnToMark, _ => exact h.kept (.ofChans rfl rfl)
  | .rstNRelease, _ =>
    dsimp only [Instr.effect]
    split
    · exact h.kept (.ofChans rfl rfl)
    · exact h
  | .referenceEdge, _ => exact h.kept (.ofChans rfl rfl)

/-- Settles O57: each block and each effect leaves the calibrations, or begins, moves or ends the one in progress. -/
theorem stepKeepsCalibrationSound : Obligations.StepKeepsCalibrationSound := by
  intro s t hs h
  refine step_keeps (P := State.calSound) (fun _ _ hu => hu.kept (.ofChans rfl rfl)) (fun u hu => ?_)
    (fun i u v hu he => ?_) hs h
  · exact State.tick_keeps (fun _ w y hv => (hv.expire w y).arbitrate) (fun _ x hv => hv.atCount x) hu
  · exact exec_keeps (fun _ _ hv => hv.kept (.ofChans rfl rfl)) (fun _ hv => hv.arbitrate)
      (fun i p hp v hv hv' => hv'.block (block_step hp hv)) (fun i hi v hv => hv.effect hi) hu he

end Sys2Proof.Machine
end

section
/-!
How the blocks of the part reach its outputs: whatever the timebase, the inputs, the calibration and the engine do, the slots
change by publishing alone, the FIFO by offered stamps and the arbiter's frames, and the link by postings and the arbiter's
pick (`Reach`). Invariants of the store, the stream unit and the link are kept by all of this once they are kept by these.
-/

namespace Sys2Proof.Machine

/-- From `s` the part on the right is reached by publishes, postings, stamps offered to the FIFO and, where `picks`, picks of
the arbiter, with anything between them that leaves the slots, the stream unit and the link. -/
inductive Reach (picks : Bool) (s : State) : State → Prop where
  | refl : Reach picks s s
  | same {t u : State} (h : Reach picks s t) (hslots : u.slots = t.slots) (hstream : u.stream = t.stream)
      (hlink : u.link = t.link) : Reach picks s u
  | post {t : State} (h : Reach picks s t) (key : NoticeKey) : Reach picks s (t.post key)
  | publish {t : State} (h : Reach picks s t) (k : SlotId) (r : Record) : Reach picks s (t.publish k r)
  | offer {t : State} (h : Reach picks s t) (st : Stamp) : Reach picks s (t.modStream (fun q => q.offer st))
  | arbitrate {t : State} (hpick : picks = true) (h : Reach picks s t) : Reach picks s t.arbitrate

section
variable {p : Bool}

/-- A property of slots, stream unit and link that publishes, postings, stamps and picks keep is kept on the way. -/
theorem Reach.keeps {P : State → Prop}
    (same : ∀ s t : State, t.slots = s.slots → t.stream = s.stream → t.link = s.link → P s → P t)
    (post : ∀ (s : State) key, P s → P (s.post key)) (publish : ∀ (s : State) k r, P s → P (s.publish k r))
    (offer : ∀ (s : State) st, P s → P (s.modStream (fun q => q.offer st)))
    (arbitrate : ∀ s : State, P s → P s.arbitrate) {s t : State} (h : Reach p s t) (hs : P s) : P t := by
  induction h with
  | refl => exact hs
  | same _ hslots hstream hlink ih => exact same _ _ hslots hstream hlink ih
  | post _ key ih => exact post _ key ih
  | publish _ k r ih => exact publish _ k r ih
  | offer _ st ih => exact offer _ st ih
  | arbitrate _ _ ih => exact arbitrate _ ih

theorem Reach.trans {s t u : State} (h : Reach p s t) (k : Reach p t u) : Reach p s u := by
  induction k with
  | refl => exact h
  | same _ hslots hstream hlink ih => exact ih.same hslots hstream hlink
  | post _ key ih => exact ih.post key
  | publish _ k r ih => exact ih.publish k r
  | offer _ st ih => exact ih.offer st
  | arbitrate hp _ ih => exact ih.arbitrate hp

/-! ## The engine -/

theorem Reach.modDesc (s : State) (g : Desc) (f : Descriptor → Descriptor) : Reach p s (s.modDesc g f) :=
  Reach.refl.same rfl rfl rfl

theorem Reach.modChan (s : State) (c : Chan) (f : Channel → Channel) : Reach p s (s.modChan c f) :=
  Reach.refl.same rfl rfl rfl

theorem Reach.modTb (s : State) (f : Timebase → Timebase) : Reach p s (s.modTb f) := Reach.refl.same rfl rfl rfl

theorem Reach.foldl {α : Type} {f : State → α → State} (h : ∀ u a, Reach p u (f u a)) :
    ∀ (l : List α) (s : State), Reach p s (l.foldl f s)
  | [], _ => .refl
  | a :: l, s => (h s a).trans (Reach.foldl h l _)

theorem Reach.forEight {f : Fin 8 → State → State} (h : ∀ g u, Reach p u (f g u)) (s : State) : Reach p s (s.forEight f) :=
  .foldl (fun u g => h g u) allEight s

theorem Reach.forChans {f : Chan → State → State} (h : ∀ c u, Reach p u (f c u)) (s : State) : Reach p s (s.forChans f) :=
  .foldl (fun u c => h c u) allChans s

theorem Reach.postGate (s : State) (g : Desc) (r : GateReason) : Reach p s (s.postGate g r) :=
  (Reach.modDesc s g _).post _

theorem Reach.arm (s : State) (g : Desc) (m : Sample) : Reach p s (s.arm g m) := by
  unfold State.arm
  split
  · exact .modDesc s g _
  · exact .modDesc s g _

theorem Reach.judge (s : State) (g : Desc) : Reach p s (s.judge g) := by
  unfold State.judge
  split
  · exact .arm s g _
  · exact .refl

theorem Reach.judgeAll (s : State) : Reach p s s.judgeAll := .forEight (fun g u => .judge u g) s

theorem Reach.armEvent (s : State) (g : Desc) (m : Sample) : Reach p s (s.armEvent g m) := by
  unfold State.armEvent
  split
  · exact .arm s g m
  · exact .refl

theorem Reach.chainFrom (s : State) (g : Desc) : Reach p s (s.chainFrom g) := by
  refine .forEight (fun h u => ?_) s
  split
  · exact .armEvent u h _
  · exact .refl

/-- Going on is the one descriptor's affair: it opens a gate or is armed. -/
theorem State.goOn_cases (s : State) (g : Desc) (e : CloseEvent) :
    s.goOn g e = s.enterArmed g ∨ s.goOn g e = s.openGate g none e.sample
      ∨ s.goOn g e = s.openGate g e.stamp e.sample := by
  unfold State.goOn
  split
  · exact .inr (.inl rfl)
  · exact .inl rfl
  · exact .inl rfl
  · exact .inl rfl
  · split
    · exact .inl rfl
    · exact .inr (.inr rfl)

theorem Reach.goOn (s : State) (g : Desc) (e : CloseEvent) : Reach p s (s.goOn g e) := by
  rcases s.goOn_cases g e with h | h | h <;> rw [h] <;> exact .modDesc s g _

theorem Reach.enterWaitArm (s : State) (g : Desc) : Reach p s (s.enterWaitArm g) :=
  (Reach.modDesc s g _).trans (.judge _ g)

theorem Reach.afterGate (s : State) (g : Desc) (old : Descriptor) (e : CloseEvent) : Reach p s (s.afterGate g old e) := by
  unfold State.afterGate
  dsimp only
  refine (Reach.modDesc s g Descriptor.applyPending).trans ?_
  split
  · split
    · exact .goOn _ g e
    · split
      · exact .modDesc _ g _
      · exact .enterWaitArm _ g
  · exact .modDesc _ g _

theorem Reach.conclude (s : State) (g : Desc) (e : CloseEvent) : Reach p s (s.conclude g e) := by
  unfold State.conclude
  dsimp only
  split
  · exact .refl
  · exact (((Reach.modDesc s g _).publish _ _).trans (.chainFrom _ g)).trans (.afterGate _ g _ e)

theorem Reach.closeGate (s : State) (g : Desc) (e : CloseEvent) : Reach p s (s.closeGate g e) := by
  unfold State.closeGate
  split
  · exact .modDesc s g _
  · exact .conclude s g e

theorem Reach.takeStamp (s : State) (g : Desc) (st : Stamp) (m : Sample) : Reach p s (s.takeStamp g st m) := by
  unfold State.takeStamp
  dsimp only
  split
  · exact .refl
  · exact .refl
  · split
    · exact .modDesc s g _
    · exact .refl
  · split
    · exact .refl
    · split
      · exact .closeGate s g _
      · split
        · exact .closeGate s g _
        · split
          · exact .modDesc s g _
          · exact .refl

theorem Reach.judgeEvent (s : State) (g : Desc) (ev : MenEvent) (m : Sample) : Reach p s (s.judgeEvent g ev m) := by
  unfold State.judgeEvent
  dsimp only
  split
  · exact .takeStamp s g _ m
  · split
    · exact .armEvent s g m
    · exact .refl
  · split
    · exact .modDesc s g _
    · exact .refl
  · split
    · exact .closeGate s g _
    · exact .refl

theorem Reach.offerEvent (s : State) (g : Desc) (ev : MenEvent) (m : Sample) : Reach p s (s.offer g ev m) := by
  unfold State.offer
  split
  · split
    · exact .modDesc s g _
    · exact .judgeEvent s g ev m
  · exact .refl

theorem Reach.formation (s : State) (g : Desc) : Reach p s (s.formation g) := by
  unfold State.formation
  split
  · exact .refl
  · exact ((Reach.modDesc s g _).trans (.conclude _ g _)).trans
      (.foldl (fun u (p : MenEvent × Sample) => .offerEvent u g p.1 p.2) _ _)

theorem Reach.gatherFlags (s : State) : Reach p s s.gatherFlags := by
  refine .forEight (fun g u => ?_) s
  split
  · exact .modDesc u g _
  · exact .refl

theorem Reach.formAtHalt (g : Desc) : ∀ (n : Nat) (s : State), Reach p s (s.formAtHalt g n)
  | 0, _ => .refl
  | n + 1, s => by
    unfold State.formAtHalt
    split
    · exact (Reach.formation s g).trans (Reach.formAtHalt g n _)
    · exact .refl

theorem Reach.returnToWait (s : State) (g : Desc) : Reach p s (s.returnToWait g) := by
  unfold State.returnToWait
  split
  · exact (Reach.modDesc s g _).trans (.postGate _ g _)
  · exact .refl

theorem Reach.haltDescs (s : State) : Reach p s s.haltDescs :=
  (Reach.forEight (fun g u => Reach.formAtHalt g _ u) s).trans (.forEight (fun g u => .returnToWait u g) _)

theorem Reach.finish (s : State) (g : Desc) : Reach p s (s.finish g) := by
  unfold State.finish
  split
  · exact .refl
  · split
    · exact .refl
    · exact .modDesc s g _
    · exact .modDesc s g _
    · unfold State.finishOpen
      dsimp only
      split
      · exact .modDesc s g _
      · exact .modDesc s g _
      · exact (Reach.modDesc s g _).trans (.closeGate _ g _)
      · exact .modDesc s g _
    · exact .modDesc s g _

theorem Reach.abort (s : State) (g : Desc) : Reach p s (s.abort g) := by
  unfold State.abort
  split
  · exact .refl
  · exact (Reach.modDesc s g _).trans (.modDesc _ g _)

theorem Reach.commitWaiting (s : State) (g : Desc) : Reach p s (s.commitWaiting g) := by
  unfold State.commitWaiting
  dsimp only
  split
  · exact (Reach.modDesc s g _).trans (.modDesc _ g _)
  · exact ((Reach.modDesc s g _).trans (.modDesc _ g _)).trans (.judge _ g)

theorem Reach.commitNow (s : State) (g : Desc) : Reach p s (s.commitNow g) := by
  unfold State.commitNow
  split
  · exact .modDesc s g _
  · exact .commitWaiting s g
  · exact .commitWaiting s g
  · exact .modDesc s g _
  · exact .modDesc s g _

/-! ## Calibration and timebase -/

theorem Reach.dropCal (s : State) (outcome : CalOutcome) : Reach p s (s.dropCal outcome) := by
  unfold State.dropCal
  split
  · exact .refl
  · exact Reach.refl.same rfl rfl rfl

theorem Reach.endCal (s : State) (outcome : CalOutcome) : Reach p s (s.endCal outcome) := by
  unfold State.endCal
  split
  · exact .refl
  · exact ((Reach.dropCal s outcome).post _).trans (.judgeAll _)

theorem Reach.judgeCal (s : State) (c : Chan) : Reach p s (s.judgeCal c) := by
  unfold State.judgeCal
  dsimp only
  split
  · exact (Reach.modChan s c _).trans (.endCal _ _)
  · exact .endCal s _

theorem Reach.takeHit (s : State) (b : Bin) : Reach p s (s.takeHit b) := by
  unfold State.takeHit
  split
  next r _ =>
    have hit := Reach.modChan (p := p) s r.chan (fun ch => ch.hit b)
    dsimp only
    split
    · exact hit.trans (.judgeCal _ _)
    · exact hit
  · exact .refl

theorem Reach.postTimebase (s : State) (cause : TbCause) : Reach p s (s.postTimebase cause) :=
  (Reach.modTb s _).post _

/-- A calibration in progress ends, or nothing happens. -/
theorem Reach.endCalIf (s : State) (q : Prop) [Decidable q] (outcome : CalOutcome) :
    Reach p s (if q then s.endCal outcome else s) := by
  split
  · exact .endCal s outcome
  · exact .refl

theorem Reach.beginRelock (s : State) (target : Source) (cause : TbCause) : Reach p s (s.beginRelock target cause) := by
  unfold State.beginRelock
  dsimp only
  refine Reach.trans (Reach.trans ?_ (.endCalIf _ _ _)) (.gatherFlags _)
  exact (Reach.modTb s _).trans (.postTimebase _ cause)

theorem Reach.enterHalt (s : State) (cause : TbCause) : Reach p s (s.enterHalt cause) := by
  have halts (w : State) : Reach p w (if s.tb.counting then w.haltDescs else w) := by
    split
    · exact .haltDescs w
    · exact .refl
  unfold State.enterHalt
  dsimp only
  refine Reach.trans (Reach.trans (Reach.trans ?_ (.forChans (fun c u => .modChan u c _) _)) (.endCalIf _ _ _)) (halts _)
  exact (Reach.modTb s _).trans (.postTimebase _ cause)

theorem Reach.lose (s : State) : Reach p s s.lose := by
  unfold State.lose
  split
  · split
    · exact .refl
    · exact .enterHalt s _
    · exact (Reach.modTb s _).trans (.postTimebase _ _)
    · exact .beginRelock s _ _
  · exact .refl

theorem Reach.monitorAbsent (s : State) : Reach p s s.monitorAbsent := by
  unfold State.monitorAbsent
  dsimp only
  split
  · exact (Reach.modTb s _).trans (.lose _)
  · exact .modTb s _

theorem Reach.goodWindow (s : State) : Reach p s s.goodWindow := by
  unfold State.goodWindow
  split
  · exact .modTb s _
  · split
    · exact .modTb s _
    · unfold State.monitorGood
      dsimp only
      split
      · exact (Reach.modTb s _).trans (.beginRelock _ _ _)
      · exact .modTb s _
  · exact .refl

theorem Reach.acquireDone (s : State) : Reach p s s.acquireDone :=
  ((Reach.modTb s _).trans (.postTimebase _ _)).trans (.judgeAll _)

theorem Reach.startTb (s : State) : Reach p s s.startTb := by
  unfold State.startTb
  dsimp only
  exact ((Reach.modTb s _).trans (.postTimebase _ _)).trans (.forChans (fun c u => .modChan u c _) _)

theorem Reach.storeAux (s : State) (role : AuxRole) (activeHigh : Bool) : Reach p s (s.storeAux role activeHigh) := by
  have h : Reach p s { s with aux := { role := role, activeHigh := activeHigh } } := Reach.refl.same rfl rfl rfl
  unfold State.storeAux
  dsimp only
  refine (h.trans (.forChans (fun c v => ?_) _)).trans (.judgeAll _)
  split
  · exact .refl
  · exact .modChan v c _

theorem Reach.storeSettings (s : State) (c : Chan) (new : Settings) : Reach p s (s.storeSettings c new) :=
  (Reach.modChan s c _).trans (.judgeAll _)

/-! ## Edges, expiries and the counter -/

theorem Reach.noteStamp (s : State) (st : Stamp) (b : Bin) : Reach p s (s.noteStamp st b) := by
  unfold State.noteStamp
  dsimp only
  have hs := Reach.modChan (p := p) s st.chan (fun ch => ch.stamped st.coarse b)
  have hv : Reach p s (if (s.chan st.chan).advises b = true then
      (s.modChan st.chan (fun ch => ch.stamped st.coarse b)).post (.advise st.chan)
      else s.modChan st.chan (fun ch => ch.stamped st.coarse b)) := by
    split
    · exact hs.post _
    · exact hs
  split
  · exact hv.offer st
  · exact hv

theorem Reach.channelEdge (s : State) (c : Chan) (input : PhysIn) (rising : Bool) (tick : Coarse) (b : Bin) :
    Reach p s (s.channelEdge c input rising tick b) := by
  have hc : Reach p s (s.countEdge c tick) := by
    unfold State.countEdge
    exact (Reach.modChan s c _).trans (.forEight (fun g u => .modDesc u g _) _)
  unfold State.channelEdge
  split
  · split
    · exact hc.trans (.noteStamp _ _ b)
    · exact hc
  · exact .refl

theorem Reach.processEdge (s : State) (input : PhysIn) (rising : Bool) (tick : Coarse) (bins : Vector Bin 4)
    (chans : List Chan) (takings : List (Chan × Desc)) :
    Reach p s (s.processEdge input rising tick bins chans takings) := by
  have aux : Reach p s (match input, s.aux.event rising with
      | .aux, some ev => s.deliver ev (s.sampleAt tick)
      | _, _ => s) := by
    split
    · exact .forEight (fun g u => .offerEvent u g _ _) s
    · exact .refl
  unfold State.processEdge
  dsimp only
  refine Reach.trans ?_ (.foldl (fun u p => ?_) _ _)
  · exact aux.trans (.foldl (fun u c => .channelEdge u c input rising tick bins[c]) _ _)
  · unfold State.taking
    split
    · exact .offerEvent u _ _ _
    · exact .refl

theorem Reach.expire (s : State) (w : Wait) (x : Coarse) : Reach p s (s.expire w x) := by
  cases w with
  | holdoff c => exact Reach.refl.same rfl rfl rfl
  | deadTime c => exact Reach.refl.same rfl rfl rfl
  | deadline => exact .endCal s _
  | nominalEnd g =>
    show Reach p s (s.nominalEnd g x)
    unfold State.nominalEnd
    split
    · exact .modDesc s g _
    · split
      · exact .closeGate s g _
      · exact .refl
  | timeout g =>
    show Reach p s (s.timeout g x)
    unfold State.timeout
    split
    · exact ((Reach.modDesc s g _).trans (.postGate _ g _)).trans (.judge _ g)
    · exact .closeGate s g _
    · exact .closeGate s g _
    · exact .refl
  | record g => exact .formation s g

theorem Reach.advanceTo (s : State) (x : Coarse) : Reach true s (s.advanceTo x) :=
  State.advanceTo_keeps (P := Reach true s) (fun _ w y hu => (hu.trans (.expire _ w y)).arbitrate rfl)
    (fun _ _ hu => hu.trans (.modTb _ _)) x .refl

theorem Reach.expiry (s : State) (w : Wait) : Reach true s (s.expiry w) :=
  State.expiry_keeps (P := Reach true s) (fun _ v y hu => hu.trans (.expire _ v y)) (fun _ hu => hu.arbitrate rfl)
    (fun _ _ hu => hu.trans (.modTb _ _)) .refl w

theorem Reach.tick (s : State) : Reach true s s.tick :=
  State.tick_keeps (P := Reach true s) (fun _ w y hu => (hu.trans (.expire _ w y)).arbitrate rfl)
    (fun _ _ hu => hu.trans (.modTb _ _)) .refl

/-! ## Blocks and effects -/

/-- A command's block reaches the outputs as said above, but for the commands that are about them: RESTART, STATUS, the slot
and stream commands and NOTICE MASK. -/
theorem Reach.block {P : State → Prop} {s t : State} (hb : BlockStep s t) (hs : P s)
    (reach : ∀ t, Reach p s t → P t) (clearStatus : P s.clearStatus)
    (restart : ∀ kind, P (s.modLink (fun l => { l with restart := some kind })))
    (clearLost : ∀ k, P (s.modSlot k (fun sl => { sl with lost := false })))
    (hold : ∀ set, P (s.forSlots set (fun k v => v.modSlot k (fun sl => { sl with held := true }))))
    (release : ∀ set, P (s.forSlots set (fun k v => v.release k)))
    (clearStats : ∀ set, P (s.forSlots set (fun k v => v.modSlot k (fun sl => { sl with stats := Stats.empty }))))
    (clearStream : P (s.modStream (fun u => { u with fifo := [], drops := Vector.replicate 4 0 })))
    (mask : ∀ m : Mask, P (s.modLink (fun l =>
        { l with mask := m, noticeQueue := s.link.noticeQueue.filter (fun e => m.admits e.key) }))) : P t := by
  cases hb with
  | unchanged => exact hs
  | clearStatus => exact clearStatus
  | restart kind => exact restart kind
  | configure => exact reach _ (.modTb s _)
  | start => exact reach _ (.startTb s)
  | stop => exact reach _ (.enterHalt s _)
  | selectHalt => exact reach _ (.modTb s _)
  | relock src => exact reach _ ((Reach.modTb s _).trans (.beginRelock _ _ _))
  | leaveHoldover => exact reach _ ((Reach.modTb s _).trans (.postTimebase _ _))
  | storeAux role pol => exact reach _ (.storeAux s role pol)
  | storeSettings c new => exact reach _ (.storeSettings s c new)
  | startCal c => exact reach _ (Reach.refl.same rfl rfl rfl)
  | write g => exact reach _ (.modDesc s g _)
  | commit g => exact reach _ (.commitNow s g)
  | enable g => exact reach _ ((Reach.modDesc s g _).trans (.judge _ g))
  | finish g => exact reach _ (.finish s g)
  | abort g => exact reach _ (.abort s g)
  | clearLost k => exact clearLost k
  | hold set => exact hold set
  | release set => exact release set
  | clearStats set => exact clearStats set
  | setStream set => exact reach _ (.forChans (fun c u => .modChan u c _) s)
  | clearStream => exact clearStream
  | mask m => exact mask m

/-- A property of the outputs that the way `Reach` keeps is kept by every row that is no command, once the resets, the
receiver's rows and the end of a frame keep it. -/
theorem Reach.effect {P : State → Prop} {i : Instr} (hi : i.payload = none) {s : State} (hs : P s)
    (reach : ∀ t, Reach true s t → P t)
    (reset : P { State.reset with power := .held, levels := s.levels, lnkclk := s.lnkclk, pending := s.pending })
    (frame : ∀ samples, P (Instr.effect (.frameReceived samples) s)) (gap : P (Instr.effect .receiveGapExpiry s))
    (brk : P (Instr.effect .linkBreak s)) (transmit : P (Instr.effect .transmitEnd s))
    (clkReturn : P (Instr.effect .lnkclkReturn s)) (mark : P (Instr.effect .lnkRxReturnToMark s)) :
    P (i.effect s) := by
  have same {t : State} (h1 : t.slots = s.slots) (h2 : t.stream = s.stream) (h3 : t.link = s.link) : P t :=
    reach t (Reach.refl.same h1 h2 h3)
  match i, hi with
  | .powerOnReset, _ => exact reset
  | .startUpEnd, _ =>
    dsimp only [Instr.effect]
    split
    · exact same rfl rfl rfl
    · exact hs
  | .monitorWindowEnd, _ =>
    dsimp only [Instr.effect]
    split
    · exact reach _ ((Reach.modTb s _).trans (.goodWindow _))
    · exact reach _ ((Reach.modTb s _).trans (.monitorAbsent _))
  | .starvation, _ => exact reach _ ((Reach.modTb s _).trans (.monitorAbsent _))
  | .acquireEnd, _ =>
    dsimp only [Instr.effect]
    split
    · exact reach _ (.acquireDone s)
    · exact hs
  | .relockEnd, _ =>
    dsimp only [Instr.effect]
    split
    · exact reach _ ((Reach.modTb s _).trans (.postTimebase _ _))
    · exact hs
  | .inputEdge input rising tick bins chans takings, _ =>
    have hl : Reach true s { s with levels := s.levels.put input rising } := Reach.refl.same rfl rfl rfl
    dsimp only [Instr.effect]
    split
    · exact reach _ ((hl.trans (.advanceTo _ tick)).trans (.processEdge _ input rising tick bins chans takings))
    · exact reach _ hl
  | .holdoffExpiry c, _ => exact reach _ (.expiry s (.holdoff c))
  | .deadTimeExpiry c, _ => exact reach _ (.expiry s (.deadTime c))
  | .calHit tick b, _ =>
    dsimp only [Instr.effect]
    split
    · exact reach _ ((Reach.advanceTo s tick).trans (.takeHit _ b))
    · exact hs
  | .calDeadline, _ => exact reach _ (.expiry s .deadline)
  | .gateNominalEnd g, _ => exact reach _ (.expiry s (.nominalEnd g))
  | .gateTimeout g, _ => exact reach _ (.expiry s (.timeout g))
  | .recordFormation g, _ => exact reach _ (.expiry s (.record g))
  | .frameReceived samples, _ => exact frame samples
  | .receiveGapExpiry, _ => exact gap
  | .linkBreak, _ => exact brk
  | .transmitEnd, _ => exact transmit
  | .lnkclkStop, _ => exact same rfl rfl rfl
  | .lnkclkReturn, _ => exact clkReturn
  | .lnkRxReturnToMark, _ => exact mark
  | .rstNRelease, _ =>
    dsimp only [Instr.effect]
    split
    · exact same rfl rfl rfl
    · exact hs
  | .referenceEdge, _ => exact reach _ (.modTb s _)

end

end Sys2Proof.Machine
end

section
/-!
The result store and the stream unit: what publishing, release and the statistics keep of a slot, what the drop rule and the
stream frames keep of the FIFO, and that every step keeps both.
-/

namespace Sys2Proof.Machine

/-! ## Statistics (R129 to R133) -/

theorem Stats.empty_sound : Stats.empty.sound :=
  ⟨by decide, fun _ => rfl, fun h => absurd h (Nat.lt_irrefl 0)⟩

theorem Stats.add_sound {st : Stats} (h : st.sound) (fn : Fn) (v : Int) : (st.add fn v).sound := by
  obtain ⟨hmax, hempty, hbounds⟩ := h
  have first : ({ fn := fn, count := 1, minimum := some v, maximum := some v, sum := v } : Stats).sound :=
    ⟨Nat.le_of_ble_eq_true rfl, fun h => absurd h Nat.one_ne_zero, fun _ => ⟨v, v, rfl, rfl, by simp, by simp⟩⟩
  unfold Stats.add
  split
  · split
    next hfn hlt =>
      refine ⟨Nat.succ_le_of_lt hlt, fun h => absurd h (Nat.succ_ne_zero _), fun _ => ?_⟩
      dsimp only
      rcases Nat.eq_zero_or_pos st.count with h0 | hpos
      · rw [hempty h0]
        exact ⟨v, v, rfl, rfl, by simp [Stats.empty], by simp [Stats.empty]⟩
      · obtain ⟨low, high, hlow, hhigh, h1, h2⟩ := hbounds hpos
        have hn : (0 : Int) ≤ st.count := Int.natCast_nonneg _
        rw [hlow, hhigh]
        refine ⟨if v < low then v else low, if high < v then v else high, rfl, rfl, ?_, ?_⟩
        · push_cast
          split <;> nlinarith
        · push_cast
          split <;> nlinarith
    next => exact ⟨hmax, hempty, hbounds⟩
  · exact first

theorem Stats.take_sound {st : Stats} (h : st.sound) (r : Record) : (st.take r).sound := by
  unfold Stats.take
  split
  · split
    · exact Stats.add_sound h _ _
    · exact h
  · exact h

/-! ## Slots (R124, R127, R128) -/

theorem Slot.reset_sound : Slot.reset.sound := ⟨fun h => absurd h Bool.false_ne_true, Stats.empty_sound⟩

theorem State.storeSound.modSlot {s : State} (h : s.storeSound) {k : SlotId} {f : Slot → Slot}
    (hf : (f (s.slot k)).sound) : (s.modSlot k f).storeSound := by
  intro j
  rw [State.slot_modSlot]
  split
  · exact hf
  · exact h j

/-- The slots alone bear on the soundness of the store. -/
theorem State.storeSound.of_slots {s t : State} (h : s.storeSound) (e : t.slots = s.slots) : t.storeSound := by
  intro k
  have := h k
  rwa [State.slot, ← e] at this

/-- A slot that holds no pending record may have its record presented. -/
theorem State.storeSound.present {s : State} {k : SlotId} (h : s.storeSound)
    (r : Record) : (s.present k r).storeSound :=
  (h.modSlot (k := k) (f := fun sl =>
    { sl with published := some r, publishCount := sl.publishCount + 1, stats := sl.stats.take r })
    ⟨(h k).1, Stats.take_sound (h k).2 r⟩).of_slots rfl

theorem State.storeSound.publish {s : State} (h : s.storeSound) (k : SlotId) (r : Record) :
    (s.publish k r).storeSound := by
  unfold State.publish
  split
  next hheld => exact h.modSlot ⟨fun _ => hheld, (h k).2⟩
  next => exact h.present r

theorem State.storeSound.release {s : State} (h : s.storeSound) (k : SlotId) : (s.release k).storeSound := by
  unfold State.release
  split
  · split
    · exact State.storeSound.present (h.modSlot ⟨fun hw => absurd hw (by simp), (h k).2⟩) _
    next hw => exact h.modSlot ⟨fun hs => absurd hs (by simp [hw]), (h k).2⟩
  · exact h

theorem State.storeSound.forSlots {s : State} (h : s.storeSound) (set : Byte) {f : SlotId → State → State}
    (hf : ∀ k u, u.storeSound → (f k u).storeSound) : (s.forSlots set f).storeSound := by
  refine State.forEight_keeps (P := State.storeSound) (fun k u hu => ?_) h
  split
  · exact hf k u hu
  · exact hu

theorem State.storeSound_of_reset {s : State} (h : s.slots = Vector.replicate 8 Slot.reset) : s.storeSound := by
  intro k
  rw [State.slot, h]
  simpa using Slot.reset_sound

/-! ## The FIFO (R141 to R144) -/

theorem gapsClosed_append : ∀ {l m : List Entry}, gapsClosed l = true → gapsClosed m = true → gapsClosed (l ++ m) = true
  | [], _, _, hm => hm
  | .stamp _ _ _ _ :: l, _, hl, hm => gapsClosed_append (l := l) hl hm
  | .gap _ _ :: .stamp _ _ _ _ :: l, m, hl, hm => by
    simp only [gapsClosed, Bool.and_eq_true, decide_eq_true_eq, List.cons_append] at hl ⊢
    exact ⟨hl.1, gapsClosed_append hl.2 hm⟩
  | .gap _ _ :: [], _, hl, _ => absurd hl (by simp [gapsClosed])
  | .gap _ _ :: .gap _ _ :: _, _, hl, _ => absurd hl (by simp [gapsClosed])

theorem gapsClosed_tail {e : Entry} {l : List Entry} (h : gapsClosed (e :: l) = true) : gapsClosed l = true := by
  cases e with
  | stamp => exact h
  | gap => exact (Bool.and_eq_true_iff.mp h).2

theorem gapsClosed_drop : ∀ (n : Nat) {l : List Entry}, gapsClosed l = true → gapsClosed (l.drop n) = true
  | 0, _, h => h
  | _ + 1, [], _ => rfl
  | n + 1, _ :: _, h => gapsClosed_drop n (gapsClosed_tail h)

theorem StreamUnit.reset_sound : StreamUnit.reset.sound := by
  refine ⟨by decide, rfl, fun e he => absurd he List.not_mem_nil, fun c => ?_⟩
  simp [StreamUnit.reset]

/-- A drop count may be set anywhere up to its saturation. -/
theorem drops_set_le {drops : Vector Nat 4} (h : ∀ c : Chan, drops[c] ≤ 4294967295) (c : Chan) {n : Nat}
    (hn : n ≤ 4294967295) (d : Chan) : (drops.set c.val n c.isLt)[d] ≤ 4294967295 := by
  simp only [Fin.getElem_fin, Vector.getElem_set]
  split
  · exact hn
  · exact h d

theorem StreamUnit.offer_sound {u : StreamUnit} (h : u.sound) (st : Stamp) : (u.offer st).sound := by
  obtain ⟨hlen, hgaps, hcounts, hdrops⟩ := h
  have hstamp : ∀ e ∈ u.fifo ++ [st.entry], e.countSound := by
    intro e he
    rcases List.mem_append.mp he with he | he
    · exact hcounts e he
    · rw [List.mem_singleton.mp he]
      trivial
  unfold StreamUnit.offer
  dsimp only
  split
  · split
    next hfree =>
      have hroom : u.fifo.length + 1 ≤ 4096 := by simp only [StreamUnit.free, Config.fifoSize] at hfree; omega
      exact ⟨by simpa using hroom, gapsClosed_append hgaps rfl, hstamp, hdrops⟩
    next => exact ⟨hlen, hgaps, hcounts, drops_set_le hdrops _ (by decide)⟩
  next hd =>
    split
    next hfree =>
      have hroom : u.fifo.length + 2 ≤ 4096 := by simp only [StreamUnit.free, Config.fifoSize] at hfree; omega
      refine ⟨by simpa using hroom, gapsClosed_append hgaps ?_, ?_, drops_set_le hdrops _ (by decide)⟩
      · simp [gapsClosed, Stamp.entry]
      · intro e he
        rcases List.mem_append.mp he with he | he
        · exact hcounts e he
        · rcases List.mem_cons.mp he with rfl | he
          · exact ⟨Nat.pos_of_ne_zero hd, hdrops st.chan⟩
          · rw [List.mem_singleton.mp he]
            trivial
    next => exact ⟨hlen, hgaps, hcounts, drops_set_le hdrops _ (satInc_le (hdrops st.chan))⟩

theorem StreamUnit.drop_sound {u : StreamUnit} (h : u.sound) (n : Nat) (number : BitVec 16) :
    ({ u with fifo := u.fifo.drop n, frameNumber := number } : StreamUnit).sound := by
  obtain ⟨hlen, hgaps, hcounts, hdrops⟩ := h
  refine ⟨?_, gapsClosed_drop n hgaps, fun e he => hcounts e (List.mem_of_mem_drop he), hdrops⟩
  simp only [List.length_drop]
  omega

theorem StreamUnit.clear_sound (u : StreamUnit) :
    ({ u with fifo := [], drops := Vector.replicate 4 0 } : StreamUnit).sound :=
  ⟨by simp, rfl, fun _ he => absurd he List.not_mem_nil, fun c => by simp⟩

theorem State.arbitrate_stream_sound {s : State} (h : s.stream.sound) : s.arbitrate.stream.sound := by
  rcases s.arbitrate_cases with e | ⟨r, rest, -, e⟩ | ⟨n, rest, -, -, e⟩ | ⟨-, -, -, e⟩ <;> rw [e]
  · exact h
  · exact h
  · exact h
  · exact StreamUnit.drop_sound h _ _

/-! ## Every step -/

/-- Result store and stream unit are sound. -/
def State.outputsSound (s : State) : Prop := s.storeSound ∧ s.stream.sound

theorem State.outputsSound.of_eq {s t : State} (h : s.outputsSound) (hslots : t.slots = s.slots)
    (hstream : t.stream = s.stream) : t.outputsSound :=
  ⟨h.1.of_slots hslots, hstream ▸ h.2⟩

theorem State.outputsSound_of_reset {s : State} (hslots : s.slots = Vector.replicate 8 Slot.reset)
    (hstream : s.stream = StreamUnit.reset) : s.outputsSound :=
  ⟨State.storeSound_of_reset hslots, hstream ▸ StreamUnit.reset_sound⟩

theorem State.outputsSound.arbitrate {s : State} (h : s.outputsSound) : s.arbitrate.outputsSound :=
  ⟨h.1.of_slots (by simp), State.arbitrate_stream_sound h.2⟩

theorem State.outputsSound.reach {s t : State} (h : s.outputsSound) {p : Bool} (hr : Reach p s t) : t.outputsSound :=
  hr.keeps (P := State.outputsSound) (fun _ _ hslots hstream _ hs => hs.of_eq hslots hstream)
    (fun _ _ hs => hs.of_eq rfl rfl)
    (fun s k r hs => ⟨hs.1.publish k r, by rw [(EngineOnly.publish s k r).stream]; exact hs.2⟩)
    (fun _ st hs => ⟨hs.1.of_slots rfl, StreamUnit.offer_sound hs.2 st⟩) (fun _ hs => hs.arbitrate) h

theorem State.outputsSound.forSlots {s : State} (h : s.outputsSound) (set : Byte) {f : SlotId → State → State}
    (hf : ∀ k u, u.storeSound → (f k u).storeSound) (he : ∀ k u, EngineOnly u (f k u)) :
    (s.forSlots set f).outputsSound :=
  ⟨h.1.forSlots set hf, by rw [(EngineOnly.forSlots (f := f) he s set).stream]; exact h.2⟩

theorem State.outputsSound.block {s t : State} (h : s.outputsSound) (hb : BlockStep s t) : t.outputsSound :=
  Reach.block (p := true) (P := State.outputsSound) hb h (fun _ hr => h.reach hr) (h.of_eq rfl rfl) (fun _ => h.of_eq rfl rfl)
    (fun k => ⟨h.1.modSlot (h.1 k), h.2⟩)
    (fun set => h.forSlots set (fun k _ hu => hu.modSlot ⟨fun _ => rfl, (hu k).2⟩) (fun k u => .modSlot u k _))
    (fun set => h.forSlots set (fun k _ hu => hu.release k) (fun k u => .release u k))
    (fun set => h.forSlots set (fun k _ hu => hu.modSlot ⟨(hu k).1, Stats.empty_sound⟩) (fun k u => .modSlot u k _))
    ⟨h.1.of_slots rfl, StreamUnit.clear_sound _⟩ (fun _ => h.of_eq rfl rfl)

theorem State.restartMeasure_outputsSound (s : State) : s.restartMeasure.outputsSound :=
  State.outputsSound_of_reset rfl rfl

theorem State.restartFull_outputsSound (s : State) : s.restartFull.outputsSound :=
  State.outputsSound_of_reset rfl rfl

theorem State.restartNow_outputsSound (s : State) : ∀ kind, (s.restartNow kind).outputsSound
  | .measure => s.restartMeasure_outputsSound
  | .full => s.restartFull_outputsSound.of_eq rfl rfl

theorem State.outputsSound.frameDone {s : State} (h : s.outputsSound) (f : TxFrame) : (s.frameDone f).outputsSound := by
  unfold State.frameDone
  dsimp only
  split
  · exact State.restartNow_outputsSound _ _
  · exact h.of_eq rfl rfl

theorem State.outputsSound.effect {i : Instr} (hi : i.payload = none) {s : State} (h : s.outputsSound) :
    (i.effect s).outputsSound := by
  refine Reach.effect (P := State.outputsSound) hi h (fun _ hr => h.reach hr) (State.outputsSound_of_reset rfl rfl)
    (fun samples => ?_) (h.of_eq rfl rfl) ?_ ?_ (h.of_eq rfl rfl) (h.of_eq rfl rfl)
  · dsimp only [Instr.effect]
    split
    · exact h.of_eq rfl rfl
    · exact h
  · dsimp only [Instr.effect]
    split
    · exact h
    · have hfull := s.restartFull_outputsSound
      generalize s.restartFull = u at hfull ⊢
      exact hfull.of_eq rfl rfl
  · dsimp only [Instr.effect]
    split
    · split
      · exact h.frameDone _
      · exact h
    · exact h

/-- Settles O59: publishing, release and the statistics keep each slot sound, the drop rule and the stream frames the FIFO;
the rest of the part reaches both by these alone (`Reach`). -/
theorem stepKeepsStoreAndStreamSound : Obligations.StepKeepsStoreAndStreamSound := by
  unfold Obligations.StepKeepsStoreAndStreamSound
  intro s t hstore hstream h
  refine step_keeps (P := State.outputsSound) (fun _ _ hs => hs.of_eq rfl rfl) (fun s hs => hs.reach (.tick s))
    (fun _ _ _ hs he => ?_) ⟨hstore, hstream⟩ h
  exact exec_keeps (P := State.outputsSound) (fun _ _ hu => hu.of_eq rfl rfl) (fun _ hu => hu.arbitrate)
    (fun _ _ hp _ hcan hu => hu.block (block_step hp hcan)) (fun _ hi _ hu => hu.effect hi) hs he

end Sys2Proof.Machine
end

section
/-!
The link controller: its queues, its counters and its receiver are sound after every step. The blocks reach the link by
postings and the arbiter's pick alone (`Reach`); the rest is the link's own bookkeeping.
-/

namespace Sys2Proof.Machine

/-! ## Restarts, block by block (R166, R170) -/

theorem State.dropCal_eq (s : State) (outcome : CalOutcome) :
    s.dropCal outcome = { s with chans := (s.dropCal outcome).chans, cal := none } := by
  unfold State.dropCal
  split
  next h => rw [← h]
  next => rfl

theorem State.mapChans_eq (s : State) (f : Chan → Channel → Channel) :
    s.mapChans f = { s with chans := (s.mapChans f).chans } :=
  State.forChans_keeps (P := fun u => u = { s with chans := u.chans })
    (fun c _ hu => congrArg (fun v => v.modChan c (f c)) hu) rfl

theorem State.resetDescs_eq (s : State) (f : Descriptor → Descriptor) :
    s.resetDescs f = { s with descs := (s.resetDescs f).descs } :=
  State.forEight_keeps (P := fun u => u = { s with descs := u.descs })
    (fun g _ hu => congrArg (fun v => v.modDesc g f) hu) rfl

theorem State.restartMeasure_link (s : State) : s.restartMeasure.link = s.link.emptyQueues := by
  unfold State.restartMeasure
  dsimp only [State.modLink, State.resetStore]
  rw [State.resetDescs_eq, State.mapChans_eq, State.dropCal_eq]

theorem State.restartFull_link (s : State) : s.restartFull.link = s.link.fullReset := by
  unfold State.restartFull
  dsimp only [State.modLink, State.resetStore]
  rw [State.resetDescs_eq, State.mapChans_eq, State.dropCal_eq]

/-! ## The receiver (R154 to R156) -/

/-- What a candidate's verdict leaves of the buffer is no longer than what lies behind the candidate's SYNC byte. -/
theorem judgeCandidate_frame {bytes left : List RxByte} {kind : Byte} {payload : List Byte}
    (h : judgeCandidate bytes = .frame kind payload left) : left.length ≤ bytes.length := by
  unfold judgeCandidate at h
  split at h
  · dsimp only at h
    split at h
    · cases h
    · split at h
      · cases h
      · split at h
        · cases h
        · split at h
          · cases h
          · split at h
            · cases h
              simp only [List.length_drop, List.length_cons]
              omega
            · cases h
  · split at h <;> cases h

@[simp] theorem Link.enqueue_rxBuffer (l : Link) (p : List Byte) : (l.enqueue p).rxBuffer = l.rxBuffer := by
  rcases l.enqueue_cases p with ⟨-, h⟩ | ⟨-, h⟩ <;> rw [h]

@[simp] theorem Link.takeFrame_rxBuffer (l : Link) (kind : Byte) (p : List Byte) :
    (l.takeFrame kind p).rxBuffer = l.rxBuffer := by
  unfold Link.takeFrame
  split
  · exact l.enqueue_rxBuffer p
  · rfl

/-- With a round for each byte the hunt goes on until the buffer is empty or begins with a SYNC byte. -/
theorem Link.hunt_head : ∀ (n : Nat) (l : Link), l.rxBuffer.length ≤ n →
    ∀ b ∈ (Link.hunt n l).rxBuffer.head?, b.val = Config.sync
  | 0, l, hn, b, hb => by
    have h0 : l.rxBuffer = [] := List.length_eq_zero_iff.mp (Nat.le_zero.mp hn)
    rw [Link.hunt, h0] at hb
    cases hb
  | n + 1, l, hn, b, hb => by
    unfold Link.hunt at hb
    split at hb
    next h => rw [h] at hb; cases hb
    next a rest h =>
      have hrest : rest.length ≤ n := by rw [h] at hn; simpa using hn
      split at hb
      next ha =>
        split at hb
        next => rw [h] at hb; cases hb; exact ha
        next => exact Link.hunt_head n _ hrest b hb
        next => exact Link.hunt_head n _ hrest b hb
        next => exact Link.hunt_head n _ hrest b hb
        next kind payload left hj =>
          exact Link.hunt_head n _ (by simpa using (judgeCandidate_frame hj).trans hrest) b hb
      next => exact Link.hunt_head n _ hrest b hb

/-- What the hunt does to the link is to shorten the buffer, to count errors and to enqueue commands. -/
theorem Link.hunt_keeps {P : Link → Prop} (buffer : ∀ l b, P l → P { l with rxBuffer := b })
    (length : ∀ l : Link, P l → P { l with lengthErrors := satInc Config.sat16 l.lengthErrors })
    (crc : ∀ l : Link, P l → P { l with crcErrors := satInc Config.sat16 l.crcErrors })
    (command : ∀ l p, P l → P (l.enqueue p)) : ∀ (n : Nat) (l : Link), P l → P (Link.hunt n l)
  | 0, _, h => h
  | n + 1, l, h => by
    unfold Link.hunt
    split
    · exact h
    next rest _ =>
      have go (m : Link) (hm : P m) : P (Link.hunt n m) := Link.hunt_keeps buffer length crc command n m hm
      split
      · split
        · exact h
        · exact go _ (buffer l _ h)
        · exact go _ (length { l with rxBuffer := rest } (buffer l _ h))
        · exact go _ (crc { l with rxBuffer := rest } (buffer l _ h))
        · refine go _ ?_
          unfold Link.takeFrame
          split
          · exact command _ _ (buffer l _ h)
          · exact buffer l _ h
      · exact go _ (buffer l _ h)

/-! ## Soundness piece by piece -/

/-- `Link.sound` but for the receive buffer, whose first byte is the hunt's affair. -/
def Link.queuesSound (l : Link) : Prop :=
  l.commandQueue.length ≤ 4
  ∧ l.replyQueue.length ≤ 8
  ∧ (l.noticeQueue.map (fun e => e.key)).Nodup
  ∧ (∀ e ∈ l.noticeQueue, l.mask.admits e.key = true ∧ 1 ≤ e.postings ∧ e.postings ≤ 255)
  ∧ l.crcErrors ≤ 65535 ∧ l.lengthErrors ≤ 65535 ∧ l.truncated ≤ 65535 ∧ l.overruns ≤ 65535
  ∧ (l.restart = none → (∀ r ∈ l.replyQueue, r.restart = none) ∧ ∀ f ∈ l.tx, f.restart = none)

/-- The receive buffer is empty or begins with a SYNC byte (R154). -/
def Link.candidateSound (l : Link) : Prop := ∀ b ∈ l.rxBuffer.head?, b.val = Config.sync

theorem Link.sound_iff (l : Link) : l.sound ↔ l.queuesSound ∧ l.candidateSound := by
  unfold Link.sound Link.queuesSound Link.candidateSound
  tauto

theorem Link.queuesSound.enqueue {l : Link} (h : l.queuesSound) (p : List Byte) : (l.enqueue p).queuesSound := by
  obtain ⟨hcmd, hreply, hnodup, hnotices, hcrc, hlen, htrunc, hover, hrestart⟩ := h
  rcases l.enqueue_cases p with ⟨hroom, e⟩ | ⟨-, e⟩ <;> rw [e]
  · exact ⟨by simpa using hroom, hreply, hnodup, hnotices, hcrc, hlen, htrunc, hover, hrestart⟩
  · exact ⟨hcmd, hreply, hnodup, hnotices, hcrc, hlen, htrunc, satInc_le hover, hrestart⟩

theorem Link.queuesSound.hunt {l : Link} (h : l.queuesSound) (n : Nat) : (Link.hunt n l).queuesSound := by
  refine Link.hunt_keeps (P := Link.queuesSound) (fun _ _ hl => hl) (fun l hl => ?_) (fun l hl => ?_)
    (fun _ p hl => hl.enqueue p) n l h
  · obtain ⟨hcmd, hreply, hnodup, hnotices, hcrc, hlen, hrest⟩ := hl
    exact ⟨hcmd, hreply, hnodup, hnotices, hcrc, satInc_le hlen, hrest⟩
  · obtain ⟨hcmd, hreply, hnodup, hnotices, hcrc, hrest⟩ := hl
    exact ⟨hcmd, hreply, hnodup, hnotices, satInc_le hcrc, hrest⟩

/-- A hunt with a round for each byte leaves the link sound. -/
theorem Link.queuesSound.hunt_sound {l : Link} (h : l.queuesSound) {n : Nat} (hn : l.rxBuffer.length ≤ n) :
    (Link.hunt n l).sound :=
  (Link.sound_iff _).mpr ⟨h.hunt n, Link.hunt_head n l hn⟩

theorem Link.sound.sample {l : Link} (h : l.sound) (level : Bool) : (l.sample level).sound := by
  obtain ⟨hq, hc⟩ := (Link.sound_iff l).mp h
  have line (x : RxLine) : ({ l with rxLine := x } : Link).sound := (Link.sound_iff _).mpr ⟨hq, hc⟩
  unfold Link.sample
  split
  · split
    · exact h
    · exact line _
  · split
    · exact line _
    · exact h
  · split
    · exact line _
    · exact h
  · split
    · exact line _
    · unfold Link.receive
      refine Link.queuesSound.hunt_sound ?_ (Nat.le_refl _)
      exact hq

theorem Link.sound.samples {l : Link} (h : l.sound) : ∀ samples : List Bool, (samples.foldl Link.sample l).sound
  | [] => h
  | level :: rest => Link.sound.samples (h.sample level) rest

/-! ## Notices (R161, R163) -/

theorem le_satInc (top v : Nat) : v ≤ satInc top v := by
  unfold satInc
  split <;> omega

theorem postInto_keys (key : NoticeKey) : ∀ q : List Notice,
    (postInto key q).map (fun e => e.key) = q.map (fun e => e.key)
      ∨ (key ∉ q.map (fun e => e.key) ∧ (postInto key q).map (fun e => e.key) = q.map (fun e => e.key) ++ [key])
  | [] => .inr ⟨by simp, rfl⟩
  | e :: q => by
    unfold postInto
    split
    next => exact .inl rfl
    next hk =>
      rcases postInto_keys key q with h | ⟨hn, h⟩
      · exact .inl (by rw [List.map_cons, h, List.map_cons])
      · refine .inr ⟨?_, by rw [List.map_cons, h, List.map_cons, List.cons_append]⟩
        rw [List.map_cons, List.mem_cons, not_or]
        exact ⟨fun e => hk e.symm, hn⟩

theorem postInto_nodup {key : NoticeKey} {q : List Notice} (h : (q.map (fun e => e.key)).Nodup) :
    ((postInto key q).map (fun e => e.key)).Nodup := by
  rcases postInto_keys key q with e | ⟨hn, e⟩ <;> rw [e]
  · exact h
  · exact List.nodup_append.mpr ⟨h, List.nodup_singleton _, fun a ha b hb hab =>
      hn (List.mem_singleton.mp hb ▸ hab ▸ ha)⟩

/-- Each entry behind a posting was there before, is the one that counts the posting, or is new. -/
theorem postInto_mem {key : NoticeKey} : ∀ {q : List Notice} {e : Notice}, e ∈ postInto key q →
    e ∈ q ∨ e = { key := key, postings := 1 }
      ∨ ∃ d ∈ q, d.key = key ∧ e = { d with postings := satInc Config.sat8 d.postings }
  | [], _, h => .inr (.inl (List.mem_singleton.mp h))
  | a :: q, e, h => by
    unfold postInto at h
    split at h
    next hk =>
      rcases List.mem_cons.mp h with rfl | h
      · exact .inr (.inr ⟨a, List.mem_cons_self, hk, rfl⟩)
      · exact .inl (List.mem_cons_of_mem _ h)
    next =>
      rcases List.mem_cons.mp h with rfl | h
      · exact .inl List.mem_cons_self
      · rcases postInto_mem h with h | h | ⟨d, hd, hdk, h⟩
        · exact .inl (List.mem_cons_of_mem _ h)
        · exact .inr (.inl h)
        · exact .inr (.inr ⟨d, List.mem_cons_of_mem _ hd, hdk, h⟩)

theorem Link.queuesSound.post {l : Link} (h : l.queuesSound) {key : NoticeKey} (hk : l.mask.admits key = true) :
    ({ l with noticeQueue := postInto key l.noticeQueue } : Link).queuesSound := by
  obtain ⟨hcmd, hreply, hnodup, hnotices, hrest⟩ := h
  refine ⟨hcmd, hreply, postInto_nodup hnodup, fun e he => ?_, hrest⟩
  rcases postInto_mem he with he | rfl | ⟨d, hd, -, rfl⟩
  · exact hnotices e he
  · exact ⟨hk, Nat.le_refl 1, Nat.le_of_ble_eq_true rfl⟩
  · obtain ⟨hadmits, hpos, hmax⟩ := hnotices d hd
    exact ⟨hadmits, hpos.trans (le_satInc _ _), satInc_le hmax⟩

theorem Link.queuesSound.mask {l : Link} (h : l.queuesSound) (m : Mask) :
    ({ l with mask := m, noticeQueue := l.noticeQueue.filter (fun e => m.admits e.key) } : Link).queuesSound := by
  obtain ⟨hcmd, hreply, hnodup, hnotices, hrest⟩ := h
  refine ⟨hcmd, hreply, hnodup.sublist (List.filter_sublist.map _), fun e he => ?_, hrest⟩
  obtain ⟨hq, hadmits⟩ := List.mem_filter.mp he
  exact ⟨hadmits, (hnotices e hq).2⟩

/-! ## The transmitter (R164) -/

theorem State.arbitrate_queuesSound {s : State} (h : s.link.queuesSound) : s.arbitrate.link.queuesSound := by
  obtain ⟨hcmd, hreply, hnodup, hnotices, hcrc, hlen, htrunc, hover, hrestart⟩ := h
  rcases s.arbitrate_cases with e | ⟨r, rest, hr, e⟩ | ⟨n, rest, -, hn, e⟩ | ⟨-, -, -, e⟩ <;> rw [e]
  · exact ⟨hcmd, hreply, hnodup, hnotices, hcrc, hlen, htrunc, hover, hrestart⟩
  · rw [hr] at hreply hrestart
    refine ⟨hcmd, Nat.le_of_succ_le hreply, hnodup, hnotices, hcrc, hlen, htrunc, hover, fun h0 => ?_⟩
    obtain ⟨hreplies, -⟩ := hrestart h0
    refine ⟨fun x hx => hreplies x (List.mem_cons_of_mem _ hx), fun f hf => ?_⟩
    cases hf
    exact hreplies r List.mem_cons_self
  · rw [hn] at hnodup hnotices
    refine ⟨hcmd, hreply, (List.nodup_cons.mp hnodup).2, fun x hx => hnotices x (List.mem_cons_of_mem _ hx), hcrc, hlen,
      htrunc, hover, fun h0 => ⟨(hrestart h0).1, fun f hf => ?_⟩⟩
    cases hf
    rfl
  · refine ⟨hcmd, hreply, hnodup, hnotices, hcrc, hlen, htrunc, hover, fun h0 => ⟨(hrestart h0).1, fun f hf => ?_⟩⟩
    cases hf
    rfl

theorem State.arbitrate_rxBuffer (s : State) : s.arbitrate.link.rxBuffer = s.link.rxBuffer := by rw [s.arbitrate_link]

theorem State.arbitrate_sound {s : State} (h : s.link.sound) : s.arbitrate.link.sound := by
  obtain ⟨hq, hc⟩ := (Link.sound_iff _).mp h
  refine (Link.sound_iff _).mpr ⟨State.arbitrate_queuesSound hq, ?_⟩
  unfold Link.candidateSound
  rwa [State.arbitrate_rxBuffer]

theorem State.arbitrate_replies (s : State) : s.arbitrate.link.replyQueue.length ≤ s.link.replyQueue.length := by
  rcases s.arbitrate_cases with e | ⟨r, rest, hr, e⟩ | ⟨n, rest, -, hn, e⟩ | ⟨-, -, -, e⟩ <;> rw [e]
  · rw [hr]
    exact Nat.le_succ _
  · exact Nat.le_refl _
  · exact Nat.le_refl _

theorem State.post_sound {s : State} (h : s.link.sound) (key : NoticeKey) : (s.post key).link.sound := by
  obtain ⟨hq, hc⟩ := (Link.sound_iff _).mp h
  rcases s.post_cases key with ⟨-, e⟩ | ⟨hk, e⟩ <;> rw [e]
  · exact h
  · exact (Link.sound_iff _).mpr ⟨hq.post hk, hc⟩

theorem State.post_replies (s : State) (key : NoticeKey) : (s.post key).link.replyQueue = s.link.replyQueue := by
  rcases s.post_cases key with ⟨-, e⟩ | ⟨-, e⟩ <;> rw [e]

/-! ## Commands (R158, R159, R170) -/

/-- Every answer but the ACK of an accepted RESTART is unmarked. -/
def answersPlainly (body : State → State × Answer) : Prop :=
  ∀ s, (body s).2.restart = none ∨ (body s).1.link.restart ≠ none

theorem answersPlainly.withLength {body : State → State × Answer} (h : ∀ s, (body s).2.restart = none) (n : Nat)
    (args : List Byte) : answersPlainly (Machine.withLength n args body) := by
  intro s
  unfold Machine.withLength
  split
  · exact .inl (h s)
  · exact .inl rfl

theorem answersPlainly.restartBody (args : List Byte) : answersPlainly (Machine.withLength 1 args (Machine.restartBody args)) := by
  intro s
  unfold Machine.withLength
  split
  · unfold Machine.restartBody
    split
    · exact .inl rfl
    · exact .inr (Option.some_ne_none _)
  · exact .inl rfl

theorem State.selectInRun_restart (s : State) (src : Source) : (s.selectInRun src).2.restart = none := by
  unfold State.selectInRun
  repeat' split
  all_goals rfl

theorem block_answersPlainly {i : Instr} {p : List Byte} (hp : i.payload = some p) : answersPlainly i.block := by
  match i, hp with
  | .unknownCommand _, _ => exact fun _ => .inl rfl
  | .identify _, _ => exact .withLength (fun _ => rfl) _ _
  | .status _, _ => exact .withLength (fun s => by unfold statusBody; split <;> rfl) _ _
  | .restartMeasure args, _ => exact .restartBody args
  | .restartFull args, _ => exact .restartBody args
  | .tbConfig _, _ => exact .withLength (fun s => by unfold tbConfigBody; (repeat' split) <;> rfl) _ _
  | .tbStart _, _ => exact .withLength (fun s => by unfold tbStartBody; (repeat' split) <;> rfl) _ _
  | .tbStop _, _ => exact .withLength (fun s => by unfold tbStopBody; split <;> rfl) _ _
  | .tbSelect _, _ =>
    refine .withLength (fun s => ?_) _ _
    unfold tbSelectBody
    split
    · rfl
    · rfl
    · rfl
    · rfl
    · exact s.selectInRun_restart _
  | .auxSet _, _ => exact .withLength (fun s => by unfold auxSetBody; (repeat' split) <;> rfl) _ _
  | .channelSet _, _ => exact .withLength (fun s => by unfold channelSetBody; (repeat' split) <;> rfl) _ _
  | .channelRead _, _ => exact .withLength (fun s => by unfold channelReadBody; split <;> rfl) _ _
  | .calibrate _, _ => exact .withLength (fun s => by unfold calibrateBody; (repeat' split) <;> rfl) _ _
  | .tableRead _, _ => exact .withLength (fun s => by unfold tableReadBody; split <;> rfl) _ _
  | .gateWrite _, _ => exact .withLength (fun s => by unfold gateWriteBody; (repeat' split) <;> rfl) _ _
  | .gateCommit _, _ => exact .withLength (fun s => by unfold gateCommitBody; (repeat' split) <;> rfl) _ _
  | .gateEnable _, _ => exact .withLength (fun s => by unfold gateEnableBody; (repeat' split) <;> rfl) _ _
  | .gateStopFinish _, _ => exact .withLength (fun s => by unfold gateStopBody; (repeat' split) <;> rfl) _ _
  | .gateStopAbort _, _ => exact .withLength (fun s => by unfold gateStopBody; (repeat' split) <;> rfl) _ _
  | .gateRead _, _ => exact .withLength (fun s => by unfold gateReadBody; split <;> rfl) _ _
  | .slotRead _, _ => exact .withLength (fun s => by unfold slotReadBody; (repeat' split) <;> rfl) _ _
  | .slotHold _, _ => exact .withLength (fun s => by unfold slotHoldBody; split <;> rfl) _ _
  | .slotRelease _, _ => exact .withLength (fun s => by unfold slotReleaseBody; split <;> rfl) _ _
  | .statsClear _, _ => exact .withLength (fun s => by unfold statsClearBody; split <;> rfl) _ _
  | .streamSet _, _ => exact .withLength (fun s => by unfold streamSetBody; split <;> rfl) _ _
  | .streamClear _, _ => exact .withLength (fun _ => rfl) _ _
  | .noticeMask _, _ => exact .withLength (fun s => by unfold noticeMaskBody; split <;> rfl) _ _

/-! ## Every step -/

theorem Reach.link_sound {s t : State} {p : Bool} (hr : Reach p s t) (h : s.link.sound) : t.link.sound :=
  hr.keeps (P := fun u => u.link.sound) (fun _ _ _ _ hlink hs => hlink ▸ hs) (fun _ key hs => State.post_sound hs key)
    (fun s k r hs => by
      unfold State.publish
      split
      · exact hs
      · exact State.post_sound (s := s.modSlot k _) hs _)
    (fun _ _ hs => hs) (fun _ hs => State.arbitrate_sound hs) h

theorem Reach.replies {s t : State} {p : Bool} (hr : Reach p s t) : t.link.replyQueue.length ≤ s.link.replyQueue.length :=
  hr.keeps (P := fun u => u.link.replyQueue.length ≤ s.link.replyQueue.length)
    (fun _ _ _ _ hlink hs => hlink ▸ hs) (fun u key hs => by rw [State.post_replies]; exact hs)
    (fun u k r hs => by rw [(EngineOnly.publish u k r).link]; exact hs)
    (fun _ _ hs => hs) (fun u hs => (State.arbitrate_replies u).trans hs) (Nat.le_refl _)

/-- The link is sound, with room for a reply. -/
def State.linkReady (s : State) : Prop := s.link.sound ∧ s.link.replyQueue.length < 8

theorem State.linkReady.reach {s t : State} (h : s.linkReady) {p : Bool} (hr : Reach p s t) : t.linkReady :=
  ⟨hr.link_sound h.1, hr.replies.trans_lt h.2⟩

theorem State.linkReady.of_link {s t : State} (h : s.linkReady) (e : t.link = s.link) : t.linkReady := by
  unfold State.linkReady
  rwa [e]

theorem State.linkReady.release {s : State} (h : s.linkReady) (k : SlotId) : (s.release k).linkReady := by
  have present {u : State} (hu : u.linkReady) (r : Record) : (u.present k r).linkReady := by
    unfold State.present
    exact (hu.of_link (t := u.modSlot k _) rfl).reach (Reach.post (.refl (picks := false)) _)
  unfold State.release
  split
  · split
    next r _ => exact present (u := s.modSlot k (fun sl => { sl with held := false, waiting := none })) (h.of_link rfl) r
    next => exact h.of_link rfl
  · exact h

theorem State.linkReady.block {s t : State} (h : s.linkReady) (hb : BlockStep s t) : t.linkReady := by
  obtain ⟨hsound, hroom⟩ := h
  obtain ⟨hq, hc⟩ := (Link.sound_iff _).mp hsound
  have slots (set : Byte) (f : SlotId → State → State) (hf : ∀ k u, State.linkReady u → State.linkReady (f k u)) :
      (s.forSlots set f).linkReady := by
    refine State.forEight_keeps (P := State.linkReady) (fun k u hu => ?_) ⟨hsound, hroom⟩
    split
    · exact hf k u hu
    · exact hu
  refine Reach.block (p := true) (P := State.linkReady) hb ⟨hsound, hroom⟩ (fun _ hr => State.linkReady.reach ⟨hsound, hroom⟩ hr)
    ?_ (fun kind => ?_) (fun _ => ⟨hsound, hroom⟩) (fun set => slots set _ fun _ _ hu => hu.of_link rfl)
    (fun set => slots set _ fun k _ hu => hu.release k) (fun set => slots set _ fun _ _ hu => hu.of_link rfl)
    ⟨hsound, hroom⟩ (fun m => ⟨(Link.sound_iff _).mpr ⟨hq.mask m, hc⟩, hroom⟩)
  · obtain ⟨hcmd, hreply, hnodup, hnotices, -, -, -, -, hrestart⟩ := hq
    exact ⟨(Link.sound_iff _).mpr ⟨⟨hcmd, hreply, hnodup, hnotices, Nat.zero_le _, Nat.zero_le _, Nat.zero_le _,
      Nat.zero_le _, hrestart⟩, hc⟩, hroom⟩
  · obtain ⟨hcmd, hreply, hnodup, hnotices, hcrc, hlen, htrunc, hover, -⟩ := hq
    exact ⟨(Link.sound_iff _).mpr ⟨⟨hcmd, hreply, hnodup, hnotices, hcrc, hlen, htrunc, hover,
      fun h0 => absurd h0 (Option.some_ne_none kind)⟩, hc⟩, hroom⟩

/-- A reply joins a queue that has room, and is marked only while its restart is pending. -/
theorem State.linkReady.reply {s : State} (h : s.linkReady) (code : Byte) {a : Answer}
    (ha : a.restart = none ∨ s.link.restart ≠ none) : (s.reply code a).link.sound := by
  obtain ⟨hsound, hroom⟩ := h
  obtain ⟨hcmd, -, hnodup, hnotices, hcrc, hlen, htrunc, hover, hc, hrestart⟩ := hsound
  refine ⟨hcmd, ?_, hnodup, hnotices, hcrc, hlen, htrunc, hover, hc, fun h0 => ?_⟩
  · simpa [State.reply] using hroom
  · obtain ⟨hreplies, htx⟩ := hrestart h0
    refine ⟨fun r hr => ?_, htx⟩
    rcases List.mem_append.mp hr with hr | hr
    · exact hreplies r hr
    · rw [List.mem_singleton.mp hr]
      exact ha.resolve_right (not_not.mpr h0)

theorem State.bring_sound {s : State} (h : s.link.sound) (p : List Byte) : (s.bring p).link.sound := by
  obtain ⟨hq, hc⟩ := (Link.sound_iff _).mp h
  unfold State.bring
  split
  · exact h
  · split
    · dsimp only [State.modLink]
      refine (Link.sound_iff _).mpr ⟨Link.queuesSound.enqueue ?_ p, ?_⟩
      · exact hq
      · unfold Link.candidateSound
        rw [Link.enqueue_rxBuffer]
        exact hc
    · exact h

theorem command_linkSound {i : Instr} {p : List Byte} (hp : i.payload = some p) {s t : State} (hs : s.link.sound)
    (h : exec i s = .next t) : t.link.sound := by
  rw [exec_command hp] at h
  unfold runCommand at h
  dsimp only at h
  have hb := State.bring_sound hs p
  generalize s.bring p = u at h hb
  split at h <;> cases h
  next hx =>
    have hcan := (State.canExecute_modLink u p (fun l => { l with commandQueue := l.commandQueue.tail }) rfl rfl).trans
      hx.2
    have hroom : u.link.replyQueue.length < 8 := by
      simp only [State.canExecute, Config.replyQueueSize, Bool.and_eq_true] at hx
      exact of_decide_eq_true hx.2.1.2
    have htail : (u.modLink (fun l => { l with commandQueue := l.commandQueue.tail })).linkReady := by
      obtain ⟨hcmd, hrest⟩ := hb
      refine ⟨⟨?_, hrest⟩, hroom⟩
      exact (List.length_tail.trans_le (Nat.sub_le _ 1)).trans hcmd
    unfold State.execute
    dsimp only
    exact State.arbitrate_sound ((htail.block (block_step hp hcan)).reply _ (block_answersPlainly hp _))
  next => exact State.arbitrate_sound hb

theorem Link.sound.emptyQueues {l : Link} (h : l.sound) : l.emptyQueues.sound := by
  obtain ⟨-, -, -, -, hcrc, hlen, htrunc, hover, hc, -⟩ := h
  refine ⟨Nat.zero_le _, Nat.zero_le _, List.nodup_nil, fun _ he => absurd he List.not_mem_nil, hcrc, hlen, htrunc, hover,
    hc, fun _ => ⟨fun _ hr => absurd hr List.not_mem_nil, fun f hf => ?_⟩⟩
  obtain ⟨g, -, rfl⟩ := Option.mem_map.mp hf
  rfl

theorem Link.fullReset_sound (l : Link) : l.fullReset.sound := by
  refine ⟨Nat.zero_le _, Nat.zero_le _, List.nodup_nil, fun _ he => absurd he List.not_mem_nil, Nat.zero_le _,
    Nat.zero_le _, Nat.zero_le _, Nat.zero_le _, fun _ hb => absurd hb (Option.not_mem_none _),
    fun _ => ⟨fun _ hr => absurd hr List.not_mem_nil, fun f hf => ?_⟩⟩
  obtain ⟨g, -, rfl⟩ := Option.mem_map.mp hf
  rfl

theorem Link.reset_sound : Link.reset.sound :=
  ⟨Nat.zero_le _, Nat.zero_le _, List.nodup_nil, fun _ he => absurd he List.not_mem_nil, Nat.zero_le _, Nat.zero_le _,
    Nat.zero_le _, Nat.zero_le _, fun _ hb => absurd hb (Option.not_mem_none _),
    fun _ => ⟨fun _ hr => absurd hr List.not_mem_nil, fun _ hf => absurd hf (Option.not_mem_none _)⟩⟩

/-- What the receiver waits for on the line does not bear on soundness. -/
theorem Link.sound.line {l : Link} (h : l.sound) (x : RxLine) : ({ l with rxLine := x } : Link).sound := h

theorem State.restartNow_linkSound {s : State} (h : s.link.sound) : ∀ kind, (s.restartNow kind).link.sound
  | .measure => by
    show s.restartMeasure.link.sound
    rw [State.restartMeasure_link]
    exact h.emptyQueues
  | .full => by
    show s.restartFull.link.sound
    rw [State.restartFull_link]
    exact s.link.fullReset_sound

theorem Link.sound.freed {l : Link} (h : l.sound) : ({ l with tx := none } : Link).sound := by
  obtain ⟨hcmd, hreply, hnodup, hnotices, hcrc, hlen, htrunc, hover, hc, hrestart⟩ := h
  exact ⟨hcmd, hreply, hnodup, hnotices, hcrc, hlen, htrunc, hover, hc,
    fun h0 => ⟨(hrestart h0).1, fun _ he => absurd he (Option.not_mem_none _)⟩⟩

theorem State.frameDone_sound {s : State} (h : s.link.sound) (f : TxFrame) : (s.frameDone f).link.sound := by
  have hfreed : (s.modLink (fun l => { l with tx := none })).link.sound := h.freed
  unfold State.frameDone
  dsimp only
  generalize s.modLink (fun l => { l with tx := none }) = u at hfreed ⊢
  split
  · exact State.restartNow_linkSound hfreed _
  · exact hfreed

theorem effect_linkSound {i : Instr} (hi : i.payload = none) {s : State} (h : s.link.sound) :
    (i.effect s).link.sound := by
  refine Reach.effect (P := fun u => u.link.sound) hi h (fun _ hr => hr.link_sound h) Link.reset_sound
    (fun samples => ?_) ?_ ?_ ?_ (h.line _) (h.line _)
  · dsimp only [Instr.effect]
    split
    · exact h.samples samples
    · exact h
  · dsimp only [Instr.effect, State.modLink]
    split
    next b rest hb hgap =>
      obtain ⟨hcmd, hreply, hnodup, hnotices, hcrc, hlen, htrunc, hrest⟩ := ((Link.sound_iff _).mp h).1
      refine Link.queuesSound.hunt_sound ?_ (Nat.le_refl _)
      exact ⟨hcmd, hreply, hnodup, hnotices, hcrc, hlen, satInc_le htrunc, hrest⟩
    next => exact h
  · dsimp only [Instr.effect]
    split
    · exact h
    · dsimp only [State.modLink]
      rw [State.restartFull_link]
      exact (Link.fullReset_sound _).line _
  · dsimp only [Instr.effect]
    split
    · split
      · exact State.frameDone_sound h _
      · exact h
    · exact h

/-- Settles O60: the receiver, the queues and the transmitter keep the link sound, and so do the postings and picks by which
the blocks reach it. -/
theorem stepKeepsLinkSound : Obligations.StepKeepsLinkSound := by
  unfold Obligations.StepKeepsLinkSound
  intro s t hs h
  refine step_keeps (P := fun u => u.link.sound) (fun _ _ hu => hu) (fun u hu => (Reach.tick u).link_sound hu)
    (fun i u v hu he => ?_) hs h
  cases hp : i.payload with
  | some p => exact command_linkSound hp hu he
  | none =>
    rcases exec_event hp u with e | e | e <;> rw [e] at he <;> cases he
    · exact hu
    · exact effect_linkSound hp hu
    · exact State.arbitrate_sound (effect_linkSound hp hu)

end Sys2Proof.Machine
end

section
/-!
The descriptors: each operation of the engine keeps every descriptor sound, and a running one with the timebase counting and
its used channels ONLINE. At the entry into HALT the second part is given up while the records that wait are formed, and
comes back when every running descriptor has returned to WAIT_ARM (R100).
-/

namespace Sys2Proof.Machine

/-! ## One descriptor (R77, R82, R92, R94) -/

section
variable {d : Descriptor}

theorem Descriptor.running_of_inGate (h : d.inGate = true) : d.running = true := by
  unfold Descriptor.inGate at h
  unfold Descriptor.running
  cases hs : d.state <;> simp_all

/-- With a gate in progress only the context, the waiting events and the function bear on soundness. -/
theorem Descriptor.sound.of_inGate (hin : d.inGate = true) (hctx : d.ctx.isSome = true)
    (hdef : d.closeEvent = none → d.deferred = []) (hfn : d.active.fn ≠ .none) : d.sound :=
  ⟨fun _ => hin, hctx.trans hin.symm, fun _ => hin, hdef, fun _ => Descriptor.running_of_inGate hin, fun _ => hfn⟩

/-- Nothing of a gate is left: no commit pending, no context, no close event, no waiting event (R77, R82, R92). -/
def Descriptor.quiet (d : Descriptor) : Prop :=
  d.commitPending = false ∧ d.ctx = none ∧ d.closeEvent = none ∧ d.deferred = []

theorem Descriptor.sound.of_quiet (hq : d.quiet) (hin : d.inGate = false)
    (ht : d.timeoutAt.isSome = true → d.running = true) (hfn : d.state ≠ .off → d.active.fn ≠ .none) : d.sound := by
  obtain ⟨hp, hctx, hclose, hdef⟩ := hq
  exact ⟨fun h => absurd h (by simp [hp]), by simp [hctx, hin], fun h => absurd h (by simp [hclose]), fun _ => hdef, ht, hfn⟩

theorem Descriptor.sound.quiet (h : d.sound) (hin : d.inGate = false) : d.quiet := by
  obtain ⟨hp, hctx, hclose, hdef, -, -⟩ := h
  have hc : d.closeEvent = none := by
    cases e : d.closeEvent with
    | none => rfl
    | some _ => exact absurd (hclose (by simp [e])) (by simp [hin])
  exact ⟨by_contra fun hn => absurd (hp (by simpa using hn)) (by simp [hin]), by simpa [hin] using hctx, hc, hdef hc⟩

theorem Descriptor.sound.ctx_isSome (h : d.sound) : d.ctx.isSome = d.inGate := h.2.1

theorem Descriptor.sound.deferred (h : d.sound) (hc : d.closeEvent = none) : d.deferred = [] := h.2.2.2.1 hc

theorem Descriptor.sound.inGate_of_close (h : d.sound) (hc : d.closeEvent.isSome = true) : d.inGate = true := h.2.2.1 hc

theorem Descriptor.sound.fn (h : d.sound) (hs : d.state ≠ .off) : d.active.fn ≠ .none := h.2.2.2.2.2 hs

theorem Descriptor.state_ne_off_of_inGate (h : d.inGate = true) : d.state ≠ .off := by
  intro e
  simp [Descriptor.inGate, e] at h

theorem Descriptor.state_ne_waitArm_of_inGate (h : d.inGate = true) : d.state ≠ .waitArm := by
  intro e
  simp [Descriptor.inGate, e] at h

theorem Descriptor.sound.fn_of_inGate (h : d.sound) (hin : d.inGate = true) : d.active.fn ≠ .none :=
  h.fn (Descriptor.state_ne_off_of_inGate hin)

/-! ### A pending commit applied (R81) -/

@[simp] theorem Descriptor.applyPending_commitPending : d.applyPending.commitPending = false := by
  unfold Descriptor.applyPending
  split
  · rfl
  next h => simpa using h

@[simp] theorem Descriptor.applyPending_deferred : d.applyPending.deferred = d.deferred := by
  unfold Descriptor.applyPending
  split <;> rfl

/-- A copy that keeps continuity has the function and the channels of the one before it. -/
theorem GateCopy.continues_eq {old new : GateCopy} (h : old.continues new = true) :
    new.fn = old.fn ∧ new.used = old.used := by
  simp only [GateCopy.continues, Bool.and_eq_true, decide_eq_true_eq] at h
  obtain ⟨⟨⟨hfn, hp⟩, hs⟩, -⟩ := h
  exact ⟨hfn.symm, by simp [GateCopy.used, hfn, hp, hs]⟩

end

/-! ## Descriptors in the part -/

/-- Descriptor `g` is sound and, where `strict`, ready while it runs (R84). -/
def State.descKept (strict : Bool) (s : State) (g : Desc) : Prop :=
  (s.desc g).sound ∧ (strict = true → (s.desc g).running = true → s.ready g = true)

def State.descsKept (strict : Bool) (s : State) : Prop := ∀ g, s.descKept strict g

theorem State.engineSound_iff (s : State) : s.engineSound ↔ s.descsKept true := by
  unfold State.engineSound State.descsKept State.descKept State.ready
  simp

theorem State.descsKept.relax {strict : Bool} {s : State} (h : s.descsKept strict) : s.descsKept false :=
  fun g => ⟨(h g).1, fun hx => absurd hx Bool.false_ne_true⟩

/-- Soundness alone is enough where nothing runs. -/
theorem State.descsKept.of_idle {strict : Bool} {s : State} (h : s.descsKept false)
    (hidle : ∀ g, (s.desc g).running = false) : s.descsKept strict :=
  fun g => ⟨(h g).1, fun _ hr => absurd hr (by simp [hidle g])⟩

theorem State.ready_congr {s t : State} {g : Desc} (htb : t.tb.counting = s.tb.counting)
    (hc : ∀ c, t.chanState c = s.chanState c) (hu : (t.desc g).active.used = (s.desc g).active.used) :
    t.ready g = s.ready g := by
  unfold State.ready
  simp only [htb, hu, hc]

theorem EngineOnly.ready {s t : State} (e : EngineOnly s t) {g : Desc}
    (hu : (t.desc g).active.used = (s.desc g).active.used) : t.ready g = s.ready g :=
  State.ready_congr (by rw [e.tb]) e.chanState hu

theorem State.descKept.of_desc {strict : Bool} {s t : State} {g : Desc} (h : s.descKept strict g) (e : EngineOnly s t)
    (hd : t.desc g = s.desc g) : t.descKept strict g := by
  unfold State.descKept
  rw [e.ready (g := g) (by rw [hd]), hd]
  exact h

section
variable {x : Bool} {s t : State} {g : Desc}

theorem State.descsKept.of_engine (h : s.descsKept x) (e : EngineOnly s t) (hd : ∀ g, t.desc g = s.desc g) :
    t.descsKept x :=
  fun g => (h g).of_desc e (hd g)

theorem State.descsKept.modDesc {f : Descriptor → Descriptor} (ho : ∀ h, h ≠ g → s.descKept x h)
    (hs : (f (s.desc g)).sound)
    (hr : x = true → (f (s.desc g)).running = true → (s.modDesc g f).ready g = true) : (s.modDesc g f).descsKept x := by
  intro h
  by_cases e : h = g
  · subst e
    unfold State.descKept
    rw [State.desc_modDesc_self]
    exact ⟨hs, hr⟩
  · exact (ho h e).of_desc (.modDesc s g f) (DescOnly.modDesc s g f h e)

/-- An update that keeps the used channels keeps readiness. -/
theorem State.ready_modDesc {f : Descriptor → Descriptor} (hu : (f (s.desc g)).active = (s.desc g).active) :
    (s.modDesc g f).ready g = s.ready g :=
  (EngineOnly.modDesc s g f).ready (by rw [State.desc_modDesc_self, hu])

/-! ## Entering a state (R88, R90, R93) -/

theorem State.descsKept.openGate (ho : ∀ h, h ≠ g → s.descKept x h) (hfn : (s.desc g).active.fn ≠ .none)
    (hdef : (s.desc g).deferred = []) (hr : x = true → s.ready g = true) (st : Option Stamp) (m : Sample) :
    (s.openGate g st m).descsKept x := by
  unfold State.openGate
  refine .modDesc ho (.of_inGate ?_ rfl (fun _ => hdef) hfn) (fun hx _ => ?_)
  · dsimp only [Descriptor.inGate]
    split_ifs <;> rfl
  · rw [State.ready_modDesc rfl]
    exact hr hx

theorem State.descsKept.enterArmed (ho : ∀ h, h ≠ g → s.descKept x h) (hfn : (s.desc g).active.fn ≠ .none)
    (hp : (s.desc g).commitPending = false) (hdef : (s.desc g).deferred = []) (hr : x = true → s.ready g = true) :
    (s.enterArmed g).descsKept x := by
  unfold State.enterArmed
  refine .modDesc ho (.of_quiet ⟨hp, rfl, rfl, hdef⟩ rfl (fun _ => rfl) (fun _ => hfn)) (fun hx _ => ?_)
  rw [State.ready_modDesc rfl]
  exact hr hx

theorem State.descsKept.enterOff (ho : ∀ h, h ≠ g → s.descKept x h) (hp : (s.desc g).commitPending = false)
    (hdef : (s.desc g).deferred = []) : (s.enterOff g).descsKept x := by
  unfold State.enterOff
  refine .modDesc ho (.of_quiet ⟨hp, rfl, rfl, hdef⟩ rfl (fun h => absurd h (by simp)) (fun h => absurd rfl h))
    (fun _ h => absurd h (by simp [Descriptor.running]))

theorem State.descsKept.arm (h : s.descsKept x) (hw : (s.desc g).state = .waitArm) (hr : s.ready g = true)
    (m : Sample) : (s.arm g m).descsKept x := by
  have hsound := (h g).1
  have hfn := hsound.fn (by rw [hw]; exact DState.noConfusion)
  obtain ⟨hp, -, -, hdef⟩ := hsound.quiet (by simp [Descriptor.inGate, hw])
  unfold State.arm
  split
  · exact .openGate (fun k _ => h k) hfn hdef (fun _ => hr) _ _
  · exact .enterArmed (fun k _ => h k) hfn hp hdef (fun _ => hr)

theorem State.descsKept.judge (h : s.descsKept x) (g : Desc) : (s.judge g).descsKept x := by
  unfold State.judge
  split
  next hj => exact h.arm hj.1 hj.2.2 _
  next => exact h

theorem State.descsKept.judgeAll (h : s.descsKept x) : s.judgeAll.descsKept x :=
  State.forEight_keeps (P := State.descsKept x) (fun g _ hu => hu.judge g) h

theorem State.descsKept.enterWaitArm (ho : ∀ h, h ≠ g → s.descKept x h) (hfn : (s.desc g).active.fn ≠ .none)
    (hp : (s.desc g).commitPending = false) (hdef : (s.desc g).deferred = []) : (s.enterWaitArm g).descsKept x := by
  unfold State.enterWaitArm
  refine State.descsKept.judge ?_ g
  exact .modDesc ho (.of_quiet ⟨hp, rfl, rfl, hdef⟩ rfl (fun h => absurd h (by simp)) (fun _ => hfn))
    (fun _ h => absurd h (by simp [Descriptor.running]))

theorem State.descsKept.armEvent (h : s.descsKept x) (g : Desc) (m : Sample) : (s.armEvent g m).descsKept x := by
  unfold State.armEvent
  split
  next ha => exact h.arm ha.1 ha.2 m
  next => exact h

theorem State.descsKept.chainFrom (h : s.descsKept x) (g : Desc) : (s.chainFrom g).descsKept x := by
  refine State.forEight_keeps (P := State.descsKept x) (fun k u hu => ?_) h
  split
  · exact hu.armEvent k _
  · exact hu

theorem State.descsKept.publish (h : s.descsKept x) (k : SlotId) (r : Record) : (s.publish k r).descsKept x :=
  h.of_engine (.publish s k r) (fun g => by unfold State.publish; split <;> rfl)

theorem State.descsKept.postGate (h : s.descsKept x) (g : Desc) (r : GateReason) : (s.postGate g r).descsKept x := by
  have hm : (s.modDesc g (fun d => { d with noticeCount := d.noticeCount + 1, lastReason := r })).descsKept x :=
    .modDesc (fun k _ => h k) (h g).1 (fun hx hr => (State.ready_modDesc (by rfl)).trans ((h g).2 hx hr))
  exact hm.of_engine (.post _ _) (fun _ => rfl)

/-! ## The end of a gate (R92, R93) -/

/-- A descriptor outside WAIT_ARM takes no chain event. -/
theorem State.chainFrom_desc {h : Desc} (hw : (s.desc h).state ≠ .waitArm) (g : Desc) :
    (s.chainFrom g).desc h = s.desc h := by
  refine State.forEight_keeps (P := fun u => u.desc h = s.desc h) (fun k u hu => ?_) rfl
  split
  · by_cases e : h = k
    · subst e
      unfold State.armEvent
      rw [if_neg (by rw [hu]; exact fun hc => hw hc.1)]
      exact hu
    · exact (DescOnly.armEvent u k _ h e).trans hu
  · exact hu

theorem State.descsKept.goOn (ho : ∀ h, h ≠ g → s.descKept x h) (hfn : (s.desc g).active.fn ≠ .none)
    (hp : (s.desc g).commitPending = false) (hdef : (s.desc g).deferred = []) (hr : x = true → s.ready g = true)
    (e : CloseEvent) : (s.goOn g e).descsKept x := by
  rcases s.goOn_cases g e with h | h | h <;> rw [h]
  · exact .enterArmed ho hfn hp hdef hr
  · exact .openGate ho hfn hdef hr _ _
  · exact .openGate ho hfn hdef hr _ _

theorem State.descsKept.afterGate (ho : ∀ h, h ≠ g → s.descKept x h) {old : Descriptor}
    (hfn : old.active.fn ≠ .none) (hdef : (s.desc g).deferred = [])
    (hr : x = true → s.tb.counting = true ∧ ∀ c ∈ old.active.used, s.chanState c = .online) (e : CloseEvent) :
    (s.afterGate g old e).descsKept x := by
  unfold State.afterGate
  dsimp only
  have ho' : ∀ h, h ≠ g → (s.modDesc g Descriptor.applyPending).descKept x h := fun h hn =>
    (ho h hn).of_desc (.modDesc s g _) (DescOnly.modDesc s g _ h hn)
  have hp : ((s.modDesc g Descriptor.applyPending).desc g).commitPending = false := by simp
  have hdef' : ((s.modDesc g Descriptor.applyPending).desc g).deferred = [] := by simpa using hdef
  have hr' : x = true → s.tb.counting = true ∧
      ∀ c ∈ old.active.used, (s.modDesc g Descriptor.applyPending).chanState c = .online := fun hx =>
    ⟨(hr hx).1, fun c hc => (EngineOnly.chanState (.modDesc s g _) c).trans ((hr hx).2 c hc)⟩
  have htb : (s.modDesc g Descriptor.applyPending).tb = s.tb := rfl
  generalize s.modDesc g Descriptor.applyPending = u at ho' hp hdef' hr' htb ⊢
  split
  · split
    next hc =>
      obtain ⟨hfn', hu⟩ := GateCopy.continues_eq hc
      refine .goOn ho' (hfn' ▸ hfn) hp hdef' (fun hx => ?_) e
      obtain ⟨hcount, honline⟩ := hr' hx
      unfold State.ready
      rw [hu, htb]
      simpa [hcount] using honline
    next =>
      split
      · exact .enterOff ho' hp hdef'
      next hn => exact .enterWaitArm ho' hn hp hdef'
  · exact .enterOff ho' hp hdef'

theorem State.ready_iff (s : State) (g : Desc) :
    s.ready g = true ↔ s.tb.counting = true ∧ ∀ c ∈ (s.desc g).active.used, s.chanState c = .online := by
  simp [State.ready]

theorem State.descsKept.conclude (h : s.descsKept x) (hdef : (s.desc g).deferred = []) (e : CloseEvent) :
    (s.conclude g e).descsKept x := by
  unfold State.conclude
  dsimp only
  split
  · exact h
  next k hk =>
    obtain ⟨hsound, hready⟩ := h g
    have hin : (s.desc g).inGate = true := by rw [← hsound.ctx_isSome, hk]; rfl
    have hfn := hsound.fn_of_inGate hin
    have hu : (s.modDesc g (fun d => { d with gateNumber := d.gateNumber + 1, closeEvent := none })).descsKept x :=
      .modDesc (fun k _ => h k)
        (.of_inGate (hin : _) (hsound.ctx_isSome.trans hin : _) (fun _ => hdef) hfn)
        (fun hx hr => (State.ready_modDesc (by rfl)).trans (hready hx hr))
    have hg : ((s.modDesc g (fun d => { d with gateNumber := d.gateNumber + 1, closeEvent := none })).desc g) =
        { s.desc g with gateNumber := (s.desc g).gateNumber + 1, closeEvent := none } := State.desc_modDesc_self ..
    have he : EngineOnly s (s.modDesc g (fun d => { d with gateNumber := d.gateNumber + 1, closeEvent := none })) :=
      .modDesc s g _
    generalize s.modDesc g (fun d => { d with gateNumber := d.gateNumber + 1, closeEvent := none }) = u at hu hg he ⊢
    have hv := hu.publish (s.desc g).active.slot (formRecord g (s.desc g) k e)
    have hvg : (u.publish (s.desc g).active.slot (formRecord g (s.desc g) k e)).desc g = u.desc g := by
      unfold State.publish
      split <;> rfl
    have hve := he.trans (.publish u (s.desc g).active.slot (formRecord g (s.desc g) k e))
    generalize u.publish (s.desc g).active.slot (formRecord g (s.desc g) k e) = v at hv hvg hve ⊢
    have hw : (v.desc g).state ≠ .waitArm := by
      rw [hvg, hg]
      exact Descriptor.state_ne_waitArm_of_inGate hin
    have hwe := hve.trans (.chainFrom v g)
    refine .afterGate (fun j _ => hv.chainFrom g j) hfn ?_ (fun hx => ?_) e
    · rw [State.chainFrom_desc hw, hvg, hg]
      exact hdef
    · obtain ⟨hc, ho⟩ := (s.ready_iff g).mp (hready hx (Descriptor.running_of_inGate hin))
      exact ⟨by rw [hwe.tb]; exact hc, fun c hm => (hwe.chanState c).trans (ho c hm)⟩

theorem State.descsKept.closeGate (h : s.descsKept x) (hin : (s.desc g).inGate = true)
    (hc : (s.desc g).closeEvent = none) (e : CloseEvent) : (s.closeGate g e).descsKept x := by
  obtain ⟨hsound, hready⟩ := h g
  unfold State.closeGate
  split
  · exact .modDesc (fun k _ => h k)
      (.of_inGate (hin : _) (hsound.ctx_isSome.trans hin : _) (fun hn => absurd hn (Option.some_ne_none e))
        (hsound.fn_of_inGate hin))
      (fun hx hr => (State.ready_modDesc (by rfl)).trans (hready hx hr))
  · exact h.conclude (hsound.deferred hc) e

/-! ## Stamps and events (R86, R89) -/

/-- An update of the context alone. -/
theorem State.descsKept.mapCtx (h : s.descsKept x) (g : Desc) (f : GateCtx → GateCtx) :
    (s.modDesc g (fun d => { d with ctx := d.ctx.map f })).descsKept x := by
  obtain ⟨⟨hp, hctx, hrest⟩, hready⟩ := h g
  exact .modDesc (fun k _ => h k) ⟨hp, by rw [Option.isSome_map]; exact hctx, hrest⟩
    (fun hx hr => (State.ready_modDesc (by rfl)).trans (hready hx hr))

theorem State.descsKept.takeStamp (h : s.descsKept x) (hc : (s.desc g).closeEvent = none) (st : Stamp) (m : Sample) :
    (s.takeStamp g st m).descsKept x := by
  obtain ⟨hsound, hready⟩ := h g
  unfold State.takeStamp
  dsimp only
  split
  · exact h
  · exact h
  next hs =>
    split
    · exact .openGate (fun k _ => h k) (hsound.fn (by rw [hs]; exact DState.noConfusion)) (hsound.deferred hc)
        (fun hx => hready hx (by simp [Descriptor.running, hs])) _ _
    · exact h
  · split
    · exact h
    next k hk =>
      have hin : (s.desc g).inGate = true := by rw [← hsound.ctx_isSome, hk]; rfl
      split
      · exact h.closeGate hin hc _
      · split
        · exact h.closeGate hin hc _
        · split
          · exact h.mapCtx g _
          · exact h

theorem State.descsKept.judgeEvent (h : s.descsKept x) (hc : (s.desc g).closeEvent = none) (ev : MenEvent)
    (m : Sample) : (s.judgeEvent g ev m).descsKept x := by
  obtain ⟨hsound, hready⟩ := h g
  unfold State.judgeEvent
  dsimp only
  split
  · exact h.takeStamp hc _ m
  · split
    · exact h.armEvent g m
    · exact h
  · split
    next ho =>
      exact .openGate (fun k _ => h k) (hsound.fn (by rw [ho.2]; exact DState.noConfusion)) (hsound.deferred hc)
        (fun hx => hready hx (by simp [Descriptor.running, ho.2])) _ _
    next => exact h
  · split
    next ho => exact h.closeGate (by simp [Descriptor.inGate, ho.2]) hc _
    next => exact h

theorem State.descsKept.offer (h : s.descsKept x) (g : Desc) (ev : MenEvent) (m : Sample) :
    (s.offer g ev m).descsKept x := by
  unfold State.offer
  split
  · split
    next hc =>
      obtain ⟨⟨hp, hctx, hclose, -, ht, hfn⟩, hready⟩ := h g
      exact .modDesc (fun k _ => h k)
        ⟨hp, hctx, hclose, fun hn => absurd hc (by simp [show (s.desc g).closeEvent = none from hn]), ht, hfn⟩
        (fun hx hr => (State.ready_modDesc (by rfl)).trans (hready hx hr))
    next hc => exact h.judgeEvent (by simpa using hc) ev m
  · exact h

theorem State.descsKept.formation (h : s.descsKept x) (g : Desc) : (s.formation g).descsKept x := by
  unfold State.formation
  split
  · exact h
  next e he =>
    obtain ⟨⟨hp, hctx, hclose, -, ht, hfn⟩, hready⟩ := h g
    have hu : (s.modDesc g (fun d => { d with deferred := [] })).descsKept x :=
      .modDesc (fun k _ => h k) ⟨hp, hctx, hclose, fun _ => rfl, ht, hfn⟩
        (fun hx hr => (State.ready_modDesc (by rfl)).trans (hready hx hr))
    have go : ∀ (l : List (MenEvent × Sample)) (u : State), u.descsKept x →
        (l.foldl (fun v p => v.offer g p.1 p.2) u).descsKept x := by
      intro l
      induction l with
      | nil => exact fun _ h => h
      | cons p l ih => exact fun u h => ih _ (h.offer g p.1 p.2)
    exact go _ _ (hu.conclude (by simp) e)

theorem State.descsKept.gatherFlags (h : s.descsKept x) : s.gatherFlags.descsKept x := by
  refine State.forEight_keeps (P := State.descsKept x) (fun g u hu => ?_) h
  split
  · exact hu.mapCtx g _
  · exact hu

/-! ## The entry into HALT (R92, R100) -/

theorem State.descsKept.formAtHalt (g : Desc) : ∀ (n : Nat) {s : State}, s.descsKept x → (s.formAtHalt g n).descsKept x
  | 0, _, h => h
  | n + 1, s, h => by
    unfold State.formAtHalt
    split
    · exact State.descsKept.formAtHalt g n (h.formation g)
    · exact h

/-- The descriptor that has returned to WAIT_ARM, or to OFF under an applied commit of NONE (R100). -/
def Descriptor.returned (d : Descriptor) : Descriptor :=
  if d.running then
    { d.applyPending with
      state := if d.applyPending.active.fn = .none then .off else .waitArm
      ctx := none, timeoutAt := none, closeEvent := none, deferred := []
      noticeCount := d.applyPending.noticeCount + 1, lastReason := .timebase }
  else d

theorem State.returnToWait_desc (s : State) (g : Desc) : (s.returnToWait g).desc g = (s.desc g).returned := by
  unfold State.returnToWait Descriptor.returned
  split
  · simp [State.postGate]
  · rfl

theorem Descriptor.returned_running (d : Descriptor) : d.returned.running = false := by
  unfold Descriptor.returned
  split
  · dsimp only [Descriptor.running]
    split_ifs <;> rfl
  next h => simpa using h

theorem Descriptor.sound.returned {d : Descriptor} (h : d.sound) : d.returned.sound := by
  have hidle := d.returned_running
  unfold Descriptor.returned at hidle ⊢
  split
  next hr =>
    refine .of_quiet ⟨by simp, rfl, rfl, rfl⟩ ?_ (fun ht => absurd ht (by simp)) (fun hs => ?_)
    · dsimp only [Descriptor.inGate]
      split_ifs <;> rfl
    · dsimp only at hs
      split at hs
      · exact absurd rfl hs
      next hn => exact hn
  next => exact h

theorem State.descsKept.returnToWait (h : s.descsKept x) (g : Desc) : (s.returnToWait g).descsKept x := by
  intro k
  by_cases e : k = g
  · subst e
    unfold State.descKept
    rw [State.returnToWait_desc, Descriptor.returned_running]
    exact ⟨(h k).1.returned, fun _ hr => absurd hr Bool.false_ne_true⟩
  · exact (h k).of_desc (.returnToWait s g) (DescOnly.returnToWait s g k e)

/-- At the entry into HALT every descriptor comes to rest. -/
theorem State.descsKept.haltDescs (h : s.descsKept false) : s.haltDescs.descsKept x := by
  unfold State.haltDescs
  have hu := State.forEight_keeps (P := State.descsKept false)
    (f := fun g u => u.formAtHalt g ((u.desc g).deferred.length + 1)) (fun g _ hu => hu.formAtHalt g _) h
  generalize s.forEight (fun g u => u.formAtHalt g ((u.desc g).deferred.length + 1)) = u at hu ⊢
  refine State.descsKept.of_idle (State.forEight_keeps (P := State.descsKept false) (fun g _ hv => hv.returnToWait g) hu)
    (fun g => ?_)
  rw [State.forEight_desc (P := fun _ => True) (F := fun _ d => d.returned) trivial (fun _ _ _ => trivial)
    (fun g v => .returnToWait v g) (fun g v _ => v.returnToWait_desc g)]
  exact Descriptor.returned_running _

end

end Sys2Proof.Machine
end

section
/-!
Every step keeps the descriptors sound: the expiries come to waits that there are, the other blocks leave the channels in
use ONLINE, and the timebase stops counting only at the entry into HALT (R24, R27, R36, R60, R100).
-/

namespace Sys2Proof.Machine

/-! ## Channels behind the loops over them -/

theorem State.forChans_modChan_chan (s : State) (f : Chan → Channel → Channel) (d : Chan) :
    (s.forChans (fun c u => u.modChan c (f c))).chan d = f d (s.chan d) := by
  fin_cases d <;> simp [State.forChans, allChans, State.chan_modChan]

theorem State.mapChans_chan (s : State) (f : Chan → Channel → Channel) (d : Chan) :
    (s.mapChans f).chan d = f d (s.chan d) := s.forChans_modChan_chan f d

theorem State.resetDescs_desc (s : State) (f : Descriptor → Descriptor) (g : Desc) :
    (s.resetDescs f).desc g = f (s.desc g) :=
  State.forEight_desc (P := fun _ => True) (F := fun _ d => f d) trivial (fun _ _ _ => trivial)
    (fun g u => .modDesc u g f) (fun g u _ => State.desc_modDesc_self u g f) g

theorem State.chanState_congr {s t : State} {c : Chan} (haux : t.aux = s.aux) (hcal : t.cal = s.cal)
    (hb : (t.chan c).set.binding = (s.chan c).set.binding) : t.chanState c = s.chanState c := by
  unfold State.chanState State.calibrates
  rw [haux, hcal, hb]

theorem State.inUse_of_used {s : State} {g : Desc} {c : Chan} (hr : (s.desc g).running = true)
    (hc : c ∈ (s.desc g).active.used) : s.inUse c = true := by
  unfold State.inUse
  rw [List.any_eq_true]
  exact ⟨g, mem_allEight g, by simp [hr, hc]⟩

theorem State.not_calibrates_of_online {s : State} {c : Chan} (h : s.chanState c = .online) :
    parks s.aux.role (s.chan c).set.binding = false ∧ s.calibrates c = false := by
  unfold State.chanState at h
  split at h
  · cases h
  next hp =>
    split at h
    · cases h
    next hc => exact ⟨by simpa using hp, by simpa using hc⟩

theorem State.online_of {s : State} {c : Chan} (hp : parks s.aux.role (s.chan c).set.binding = false)
    (hc : s.calibrates c = false) : s.chanState c = .online := by
  simp [State.chanState, hp, hc]

/-! ## What leaves the engine undisturbed -/

/-- From `s` to `t` no descriptor has changed, and one that runs and was ready still is. -/
structure Undisturbed (s t : State) : Prop where
  desc : ∀ g, t.desc g = s.desc g
  ready : ∀ g, (s.desc g).running = true → s.ready g = true → t.ready g = true

theorem Undisturbed.refl (s : State) : Undisturbed s s := ⟨fun _ => rfl, fun _ _ h => h⟩

theorem Undisturbed.trans {s t u : State} (h : Undisturbed s t) (k : Undisturbed t u) : Undisturbed s u :=
  ⟨fun g => (k.desc g).trans (h.desc g), fun g hr hs => k.ready g (by rw [h.desc]; exact hr) (h.ready g hr hs)⟩

/-- The timebase goes on counting and the channels in use stay ONLINE. -/
theorem Undisturbed.of_online {s t : State} (hd : ∀ g, t.desc g = s.desc g)
    (htb : s.tb.counting = true → t.tb.counting = true)
    (hc : ∀ c, s.inUse c = true → s.chanState c = .online → t.chanState c = .online) : Undisturbed s t :=
  ⟨hd, fun g hr hs => by
    obtain ⟨hcount, honline⟩ := (s.ready_iff g).mp hs
    rw [State.ready_iff, hd]
    exact ⟨htb hcount, fun c hm => hc c (State.inUse_of_used hr hm) (honline c hm)⟩⟩

/-- Descriptors, timebase, AUX, calibration and bindings decide; they are as they were. -/
theorem Undisturbed.of_eq {s t : State} (hd : ∀ g, t.desc g = s.desc g) (htb : t.tb.counting = s.tb.counting)
    (haux : t.aux = s.aux) (hcal : t.cal = s.cal) (hb : ∀ c, (t.chan c).set.binding = (s.chan c).set.binding) :
    Undisturbed s t :=
  .of_online hd (fun h => htb.trans h) (fun c _ ho => (State.chanState_congr haux hcal (hb c)).trans ho)

theorem Undisturbed.modChan (s : State) (c : Chan) {f : Channel → Channel}
    (hf : (f (s.chan c)).set.binding = (s.chan c).set.binding) : Undisturbed s (s.modChan c f) :=
  .of_eq (fun _ => rfl) rfl rfl rfl (fun d => by
    rw [State.chan_modChan]
    split
    next h => rw [hf, h]
    next => rfl)

theorem Undisturbed.forChans {f : Chan → State → State} (h : ∀ c u, Undisturbed u (f c u)) (s : State) :
    Undisturbed s (s.forChans f) :=
  State.forChans_keeps (P := Undisturbed s) (fun c u hu => hu.trans (h c u)) (.refl s)

theorem Undisturbed.post (s : State) (key : NoticeKey) : Undisturbed s (s.post key) :=
  .of_eq (fun _ => rfl) rfl rfl rfl (fun _ => rfl)

theorem Undisturbed.modTb (s : State) {f : Timebase → Timebase}
    (hf : s.tb.counting = true → (f s.tb).counting = true) : Undisturbed s (s.modTb f) :=
  .of_online (fun _ => rfl) hf (fun _ _ h => h)

theorem Undisturbed.postTimebase (s : State) (cause : TbCause) : Undisturbed s (s.postTimebase cause) :=
  (Undisturbed.modTb s (fun h => by exact h)).trans (.post _ _)

theorem Undisturbed.arbitrate (s : State) : Undisturbed s s.arbitrate :=
  .of_eq (fun _ => State.arbitrate_desc s _) (by rw [State.arbitrate_tb]) (State.arbitrate_aux s) (State.arbitrate_cal s)
    (fun _ => by rw [State.arbitrate_chan])

/-- A channel whose calibration ends is ONLINE again, and the others stay as they are (R67 to R70). -/
theorem Undisturbed.dropCal (s : State) (outcome : CalOutcome) : Undisturbed s (s.dropCal outcome) := by
  have heq := s.dropCal_eq outcome
  refine .of_online (fun g => by rw [heq]; rfl) (fun h => by rw [heq]; exact h) (fun c _ ho => ?_)
  obtain ⟨hp, -⟩ := State.not_calibrates_of_online ho
  refine State.online_of ?_ (State.calibrates_of_none (State.dropCal_cal s outcome) c)
  have haux : (s.dropCal outcome).aux = s.aux := by rw [heq]
  have hset : ((s.dropCal outcome).chan c).set = (s.chan c).set := by
    rw [State.dropCal_chan]
    split <;> rfl
  rw [haux, hset]
  exact hp

section
variable {x : Bool} {s t : State} {g : Desc}

theorem State.descsKept.undisturbed (h : s.descsKept x) (hu : Undisturbed s t) : t.descsKept x := by
  intro g
  unfold State.descKept
  rw [hu.desc g]
  exact ⟨(h g).1, fun hx hr => hu.ready g hr ((h g).2 hx hr)⟩

theorem State.descsKept.not_running (h : s.descsKept true) (hc : s.tb.counting = false) (g : Desc) :
    (s.desc g).running = false := by
  by_contra hr
  have := ((s.ready_iff g).mp ((h g).2 rfl (by simpa using hr))).1
  rw [hc] at this
  cases this

/-- With the timebase not counting, nothing runs, and all that counts is that the descriptors stay as they are. -/
theorem State.descsKept.halted (h : s.descsKept true) (hc : s.tb.counting = false) (hd : ∀ g, t.desc g = s.desc g) :
    t.descsKept true :=
  h.undisturbed ⟨hd, fun g hr => absurd hr (by simp [h.not_running hc g])⟩

theorem State.descsKept.of_descs (h : s.descsKept false) (hd : ∀ g, t.desc g = s.desc g) : t.descsKept false :=
  fun g => ⟨hd g ▸ (h g).1, fun hx => absurd hx Bool.false_ne_true⟩

/-! ## Expiries (R7) -/

theorem State.descsKept.endCal (h : s.descsKept x) (outcome : CalOutcome) : (s.endCal outcome).descsKept x := by
  unfold State.endCal
  split
  · exact h
  · exact ((h.undisturbed (.dropCal s outcome)).undisturbed (.post _ _)).judgeAll

theorem State.descsKept.nominalEnd (h : s.descsKept x) {y : Coarse} (hw : s.instantOf (.nominalEnd g) = some y) (z : Coarse) :
    (s.nominalEnd g z).descsKept x := by
  have hopen : (s.desc g).state = .gateOpen ∧ (s.desc g).closeEvent = none := by
    by_contra hn
    simp [State.instantOf, hn] at hw
  have hin : (s.desc g).inGate = true := by simp [Descriptor.inGate, hopen.1]
  obtain ⟨hsound, hready⟩ := h g
  unfold State.nominalEnd
  split
  · exact .modDesc (fun k _ => h k)
      (.of_inGate rfl (hsound.ctx_isSome.trans hin : _) (fun _ => hsound.deferred hopen.2) (hsound.fn_of_inGate hin))
      (fun hx _ => (State.ready_modDesc (by rfl)).trans (hready hx (Descriptor.running_of_inGate hin)))
  · split
    · exact h.closeGate hin hopen.2 _
    · exact h

theorem State.descsKept.timeout (h : s.descsKept x) {y : Coarse} (hw : s.instantOf (.timeout g) = some y) (z : Coarse) :
    (s.timeout g z).descsKept x := by
  have hclose : (s.desc g).closeEvent = none := by
    by_contra hn
    simp [State.instantOf, hn] at hw
  obtain ⟨hsound, hready⟩ := h g
  unfold State.timeout
  split
  next hs =>
    obtain ⟨hp, hctx, hc, hdef⟩ := hsound.quiet (by simp [Descriptor.inGate, hs])
    unfold State.armedTimeout
    refine State.descsKept.judge (State.descsKept.postGate ?_ g _) g
    exact .modDesc (fun k _ => h k)
      (.of_quiet ⟨hp, hctx, hc, hdef⟩ rfl (fun ht => absurd ht (by simp))
        (fun _ => hsound.fn (by rw [hs]; exact DState.noConfusion)))
      (fun _ hr => absurd hr (by simp [Descriptor.running]))
  next hs _ => exact h.closeGate (by simp [Descriptor.inGate, hs]) hclose _
  next hs _ => exact h.closeGate (by simp [Descriptor.inGate, hs]) hclose _
  · exact h

/-- The expiry of a wait that there is. -/
theorem State.descsKept.expire (h : s.descsKept x) {w : Wait} {y : Coarse} (hw : s.instantOf w = some y) (z : Coarse) :
    (s.expire w z).descsKept x := by
  cases w with
  | holdoff c => exact h.undisturbed (.modChan s c (f := fun ch => { ch with holdoffEnd := none }) rfl)
  | deadTime c => exact h.undisturbed (.modChan s c (f := fun ch => { ch with deadEnd := none }) rfl)
  | deadline => exact h.endCal .osc
  | nominalEnd g => exact h.nominalEnd hw z
  | timeout g => exact h.timeout hw z
  | record g => exact h.formation g

end

/-! ### Properties that the expiries of waits there are keep -/

section
variable {P : State → Prop} (h : ∀ u w y, u.instantOf w = some y → P u → P (u.expire w y).arbitrate)
include h

theorem State.settleOnce_keepsDue {s : State} (hs : P s) : P s.settleOnce := by
  have go : ∀ (l : List Wait) (u : State), P u → P (l.foldl (fun u w =>
      match u.instantOf w with
      | some x => if atOrAfter u.tb.coarse x then (u.expire w x).arbitrate else u
      | none => u) u) := by
    intro l
    induction l with
    | nil => intro u hu; exact hu
    | cons w l ih =>
      intro u hu
      refine ih _ ?_
      dsimp only
      split
      next y hy =>
        split
        · exact h u w y hy hu
        · exact hu
      · exact hu
  exact go Wait.all s hs

theorem State.settle_keepsDue {s : State} (hs : P s) : P s.settle := by
  have go : ∀ (fuel : Nat) (u : State), P u → P (State.settleIn fuel u) := by
    intro fuel
    induction fuel with
    | zero => intro u hu; exact hu
    | succ n ih =>
      intro u hu
      unfold State.settleIn
      split
      · exact ih _ (State.settleOnce_keepsDue h hu)
      · exact hu
  exact go _ s hs

variable (hc : ∀ u x, P u → P (u.atCount x))
include hc

theorem State.advance_keepsDue : ∀ (fuel : Nat) (s : State) (x : Coarse), P s → P (State.advance fuel s x)
  | 0, s, x, hs => hc s x hs
  | fuel + 1, s, x, hs => by
    have hu : P s.settle := State.settle_keepsDue h hs
    unfold State.advance
    dsimp only
    split
    · exact State.advance_keepsDue fuel _ x (hc _ _ hu)
    · exact hc _ _ hu

end

section
variable {x : Bool} {s t : State} {g : Desc}

theorem State.descsKept.atCount (h : s.descsKept x) (y : Coarse) : (s.atCount y).descsKept x :=
  h.undisturbed (.modTb s (fun hc => by exact hc))

theorem State.descsKept.advanceTo (h : s.descsKept x) (y : Coarse) : (s.advanceTo y).descsKept x :=
  State.advance_keepsDue (P := State.descsKept x) (fun _ _ y hw hu => (hu.expire hw y).undisturbed (.arbitrate _))
    (fun _ y hu => hu.atCount y) _ s y h

theorem State.descsKept.expireIfDue (h : s.descsKept x) (w : Wait) : (s.expireIfDue w).descsKept x := by
  unfold State.expireIfDue
  split
  next y hy =>
    split
    · exact h.expire hy y
    · exact h
  · exact h

theorem State.descsKept.expiry (h : s.descsKept x) (w : Wait) : (s.expiry w).descsKept x := by
  unfold State.expiry
  split
  · split
    · refine State.descsKept.expireIfDue ?_ w
      split
      · exact h
      · exact h.advanceTo _
    · exact h
  · exact h

theorem State.descsKept.tick (h : s.descsKept x) : s.tick.descsKept x := by
  unfold State.tick
  split
  · exact h.advanceTo _
  · exact h

/-! ## Edges (R30 to R53) -/

theorem Descriptor.sound.note {d : Descriptor} (h : d.sound) (c : Chan) (y : Coarse) : (d.note c y).sound := by
  obtain ⟨hp, hctx, hclose, hdef, ht, hfn⟩ := h
  refine ⟨hp, ?_, fun hc => ?_, fun hc => ?_, ht, hfn⟩
  · exact (Option.isSome_map ..).trans hctx
  · exact hclose ((Option.isSome_map ..).symm.trans hc)
  · have hc' : d.closeEvent = none := Option.map_eq_none_iff.mp hc
    simp [Descriptor.note, hdef hc']

theorem State.descsKept.countEdge (h : s.descsKept x) (c : Chan) (tick : Coarse) : (s.countEdge c tick).descsKept x := by
  unfold State.countEdge
  refine State.forEight_keeps (P := State.descsKept x) (fun g u hu => ?_) ?_
  · exact .modDesc (fun k _ => hu k) ((hu g).1.note c tick)
      (fun hx hr => (State.ready_modDesc (by rfl)).trans ((hu g).2 hx hr))
  · refine h.undisturbed (.modChan s c ?_)
    rfl

theorem State.descsKept.noteStamp (h : s.descsKept x) (st : Stamp) (b : Bin) : (s.noteStamp st b).descsKept x := by
  unfold State.noteStamp
  dsimp only
  have hc : (s.modChan st.chan (fun ch => ch.stamped st.coarse b)).descsKept x := h.undisturbed (.modChan s _ (by rfl))
  have hv : (if (s.chan st.chan).advises b = true then
      (s.modChan st.chan (fun ch => ch.stamped st.coarse b)).post (.advise st.chan)
      else s.modChan st.chan (fun ch => ch.stamped st.coarse b)).descsKept x := by
    split
    · exact hc.undisturbed (.post _ _)
    · exact hc
  split
  · exact hv.undisturbed (.of_eq (fun _ => rfl) rfl rfl rfl (fun _ => rfl))
  · exact hv

theorem State.descsKept.channelEdge (h : s.descsKept x) (c : Chan) (input : PhysIn) (rising : Bool) (tick : Coarse)
    (b : Bin) : (s.channelEdge c input rising tick b).descsKept x := by
  unfold State.channelEdge
  split
  · split
    · exact (h.countEdge c tick).noteStamp _ b
    · exact h.countEdge c tick
  · exact h

theorem State.descsKept.foldl {α : Type} {f : State → α → State} (hf : ∀ u a, State.descsKept x u → (f u a).descsKept x) :
    ∀ (l : List α) {s : State}, s.descsKept x → (l.foldl f s).descsKept x
  | [], _, h => h
  | a :: l, _, h => State.descsKept.foldl hf l (hf _ a h)

theorem State.descsKept.processEdge (h : s.descsKept x) (input : PhysIn) (rising : Bool) (tick : Coarse)
    (bins : Vector Bin 4) (chans : List Chan) (takings : List (Chan × Desc)) :
    (s.processEdge input rising tick bins chans takings).descsKept x := by
  have haux : (match input, s.aux.event rising with
      | .aux, some ev => s.deliver ev (s.sampleAt tick)
      | _, _ => s).descsKept x := by
    split
    · exact State.forEight_keeps (P := State.descsKept x) (fun g _ hu => hu.offer g _ _) h
    · exact h
  unfold State.processEdge
  dsimp only
  refine State.descsKept.foldl (fun u p hu => ?_) _ (State.descsKept.foldl (fun u c hu => ?_) _ haux)
  · unfold State.taking
    split
    · exact hu.offer _ _ _
    · exact hu
  · exact hu.channelEdge c input rising tick bins[c]

/-! ## Calibration and timebase -/

theorem State.descsKept.takeHit (h : s.descsKept x) (b : Bin) : (s.takeHit b).descsKept x := by
  unfold State.takeHit
  split
  next r _ =>
    have hu : (s.modChan r.chan (fun ch => ch.hit b)).descsKept x := h.undisturbed (.modChan s _ (by rfl))
    dsimp only
    split
    · unfold State.judgeCal
      dsimp only
      split
      · refine State.descsKept.endCal (hu.undisturbed ?_) _
        unfold State.installTable
        exact .modChan _ _ (by rfl)
      · exact hu.endCal _
    · exact hu
  · exact h

theorem State.descsKept.endCalIf (h : s.descsKept x) (p : Prop) [Decidable p] (outcome : CalOutcome) :
    (if p then s.endCal outcome else s).descsKept x := by
  split
  · exact h.endCal outcome
  · exact h

theorem State.descsKept.beginRelock (h : s.descsKept x) (target : Source) (cause : TbCause) :
    (s.beginRelock target cause).descsKept x := by
  unfold State.beginRelock
  dsimp only
  refine State.descsKept.gatherFlags (State.descsKept.endCalIf ?_ _ _)
  exact (h.undisturbed (.modTb s (fun _ => by rfl))).undisturbed (.postTimebase _ _)

theorem State.descsKept.enterHalt (h : s.descsKept true) (cause : TbCause) : (s.enterHalt cause).descsKept true := by
  have hforget : (s.modTb (fun tb =>
      { tb with state := .halt, inForce := .none, holdover := false, phaseTimer := none })).descsKept false :=
    h.relax.of_descs (fun _ => rfl)
  unfold State.enterHalt
  dsimp only
  have hv := (hforget.undisturbed (.postTimebase _ cause)).undisturbed
    (.forChans (f := fun c w => w.modChan c (fun ch => { ch with deadEnd := none })) (fun c u => .modChan u c (by rfl)) _)
  split
  · exact (hv.endCalIf _ _).haltDescs
  next hc =>
    have hrun : ¬s.tb.state = .run := fun e => hc (by simp [Timebase.counting, e])
    rw [if_neg hrun]
    refine h.halted (by simpa using hc) (fun g => ?_)
    rw [(Undisturbed.forChans (fun c u => .modChan u c (by rfl)) _).desc, (Undisturbed.postTimebase _ cause).desc]
    rfl

theorem State.descsKept.lose (h : s.descsKept true) : s.lose.descsKept true := by
  unfold State.lose
  split
  · split
    · exact h
    · exact h.enterHalt _
    next hs => 
      exact (h.undisturbed (.modTb s (fun hc => by exact hc))).undisturbed (.postTimebase _ _)
    · exact h.beginRelock _ _
  · exact h

theorem State.descsKept.monitorAbsent (h : s.descsKept true) : s.monitorAbsent.descsKept true := by
  have hu := h.undisturbed (.modTb s (f := fun tb => { tb with monitor := .absent, runCount := 0 }) (fun hc => by exact hc))
  unfold State.monitorAbsent
  dsimp only
  split
  · exact hu.lose
  · exact hu

theorem State.descsKept.goodWindow (h : s.descsKept true) : s.goodWindow.descsKept true := by
  unfold State.goodWindow
  split
  · exact h.undisturbed (.modTb s (fun hc => by exact hc))
  · split
    · exact h.undisturbed (.modTb s (fun hc => by exact hc))
    · have hu := h.undisturbed
        (.modTb s (f := fun tb => { tb with monitor := .good, runCount := Config.goodRun }) (fun hc => by exact hc))
      unfold State.monitorGood
      dsimp only
      split
      · exact hu.beginRelock _ _
      · exact hu
  · exact h

theorem State.descsKept.acquireDone (h : s.descsKept true) (hs : s.tb.counting = false) :
    s.acquireDone.descsKept true := by
  unfold State.acquireDone
  refine State.descsKept.judgeAll (State.descsKept.undisturbed ?_ (.postTimebase _ _))
  exact h.halted hs (fun _ => rfl)

/-! ## Commands -/

/-- What a command does outside the engine's reach leaves it undisturbed. -/
theorem State.descsKept.storeAux (h : s.descsKept true) (huse : s.auxInUse = false) (role : AuxRole)
    (activeHigh : Bool) : (s.storeAux role activeHigh).descsKept true := by
  have hu : Undisturbed s { s with aux := { role := role, activeHigh := activeHigh } } := by
    refine .of_online (fun _ => rfl) (fun hc => hc) (fun c hc ho => ?_)
    obtain ⟨hp, hcal⟩ := State.not_calibrates_of_online ho
    refine State.online_of ?_ hcal
    have hb : s.boundToAux c = false := by
      by_contra hb
      unfold State.inUse at hc
      obtain ⟨g, hg, hgc⟩ := List.any_eq_true.mp hc
      obtain ⟨hr, hm⟩ := Bool.and_eq_true_iff.mp hgc
      have hn : s.auxInUse = true := by
        unfold State.auxInUse
        rw [List.any_eq_true]
        refine ⟨g, hg, ?_⟩
        dsimp only
        rw [hr, Bool.true_and, Bool.or_eq_true]
        exact .inr (List.any_eq_true.mpr ⟨c, by simpa using hm, by simpa using hb⟩)
      rw [huse] at hn
      cases hn
    show parks role (s.chan c).set.binding = false
    unfold State.boundToAux at hb
    generalize (s.chan c).set.binding = b at hp hb ⊢
    match b with
    | none => exact hp
    | some .aux => simp at hb
    | some .in1 => rfl
    | some .in2 => rfl
    | some .in3 => rfl
    | some .in4 => rfl
  unfold State.storeAux
  dsimp only
  refine State.descsKept.judgeAll ((h.undisturbed hu).undisturbed (.forChans (fun c v => ?_) _))
  split
  · exact .refl v
  · exact .modChan v c (by rfl)

theorem State.descsKept.storeSettings (h : s.descsKept true) (c : Chan) (new : Settings)
    (hbusy : ¬((s.chanState c = .calibrating ∨ s.inUse c = true) ∧ new.sameButHoldoff (s.chan c).set = false)) :
    (s.storeSettings c new).descsKept true := by
  unfold State.storeSettings
  refine State.descsKept.judgeAll (h.undisturbed (.of_online (fun _ => rfl) (fun hc => hc) (fun d hd ho => ?_)))
  refine Eq.trans (b := s.chanState d) (State.chanState_congr rfl rfl ?_) ho
  rw [State.chan_modChan]
  split
  next e =>
    subst e
    have hsame : new.sameButHoldoff (s.chan d).set = true := by
      by_contra hn
      exact hbusy ⟨.inr hd, by simpa using hn⟩
    simp only [Settings.sameButHoldoff, Bool.and_eq_true, decide_eq_true_eq] at hsame
    exact hsame.1.1.1.1
  next => rfl

theorem State.descsKept.startCal (h : s.descsKept true) (c : Chan)
    (hfree : ¬(s.cal.isSome = true ∨ s.chanState c = .parked ∨ s.inUse c = true)) : (s.startCal c).descsKept true := by
  refine h.undisturbed (.of_online (fun _ => rfl) (fun hc => hc) (fun d hd ho => ?_))
  obtain ⟨hp, -⟩ := State.not_calibrates_of_online ho
  have hdc : c ≠ d := fun e => hfree (.inr (.inr (e ▸ hd)))
  refine State.online_of ?_ ?_
  · have hset : ((s.startCal c).chan d).set = (s.chan d).set := by
      show ((s.modChan c Channel.startAttempt).chan d).set = _
      rw [State.chan_modChan, if_neg (fun e => hdc e.symm)]
    rw [hset]
    exact hp
  · simpa [State.calibrates, State.startCal] using hdc

theorem State.descsKept.quiet (h : s.descsKept x) (hin : (s.desc g).inGate = false) : (s.desc g).quiet :=
  (h g).1.quiet hin

theorem State.descsKept.commitWaiting (h : s.descsKept true) (hin : (s.desc g).inGate = false) :
    (s.commitWaiting g).descsKept true := by
  obtain ⟨-, hctx, hc, hdef⟩ := h.quiet hin
  have ho : ∀ k, k ≠ g → (s.modDesc g (fun d => { d.commit with timeoutAt := none })).descKept true k := fun k hk =>
    (h k).of_desc (.modDesc s g _) (DescOnly.modDesc s g _ k hk)
  have hg := s.desc_modDesc_self g (fun d => { d.commit with timeoutAt := none })
  unfold State.commitWaiting
  dsimp only
  generalize s.modDesc g (fun d => { d.commit with timeoutAt := none }) = u at ho hg ⊢
  have hq : (u.desc g).commitPending = false ∧ (u.desc g).ctx = none ∧ (u.desc g).closeEvent = none
      ∧ (u.desc g).deferred = [] := by
    rw [hg]
    exact ⟨rfl, hctx, hc, hdef⟩
  have ht : (u.desc g).timeoutAt = none := by rw [hg]
  split
  · exact .modDesc ho (.of_quiet hq rfl (fun h => absurd h (by simp [ht])) (fun hs => absurd rfl hs))
      (fun _ hr => absurd hr (by simp [Descriptor.running]))
  next hn =>
    refine State.descsKept.judge ?_ g
    exact .modDesc ho (.of_quiet hq rfl (fun h => absurd h (by simp [ht])) (fun _ => hn))
      (fun _ hr => absurd hr (by simp [Descriptor.running]))

/-- An update of a gate in progress that leaves its function, its context, its close event and what waits behind it. -/
theorem State.descsKept.inGate (h : s.descsKept x) {f : Descriptor → Descriptor} (hin : (s.desc g).inGate = true)
    (hin' : (f (s.desc g)).inGate = true) (hctx : (f (s.desc g)).ctx.isSome = (s.desc g).ctx.isSome)
    (hc : (f (s.desc g)).closeEvent = (s.desc g).closeEvent) (hdef : (f (s.desc g)).deferred = (s.desc g).deferred)
    (hact : (f (s.desc g)).active = (s.desc g).active) : (s.modDesc g f).descsKept x := by
  obtain ⟨hsound, hready⟩ := h g
  refine .modDesc (fun k _ => h k) (.of_inGate hin' (hctx.trans (hsound.ctx_isSome.trans hin)) ?_ ?_) (fun hx _ => ?_)
  · rw [hc, hdef]
    exact hsound.deferred
  · rw [hact]
    exact hsound.fn_of_inGate hin
  · rw [State.ready_modDesc hact]
    exact hready hx (Descriptor.running_of_inGate hin)

theorem State.descsKept.commitNow (h : s.descsKept true) (g : Desc) : (s.commitNow g).descsKept true := by
  unfold State.commitNow
  split
  next hs =>
    have hin : (s.desc g).inGate = false := by simp [Descriptor.inGate, hs]
    obtain ⟨-, hctx, hc, hdef⟩ := h.quiet hin
    obtain ⟨-, -, -, -, ht, -⟩ := (h g).1
    exact .modDesc (fun k _ => h k) (.of_quiet ⟨rfl, hctx, hc, hdef⟩ hin (ht : _) (fun hn => absurd hs hn))
      (fun _ hr => absurd hr (by simp [Descriptor.running, Descriptor.commit, hs]))
  next hs => exact h.commitWaiting (by simp [Descriptor.inGate, hs])
  next hs => exact h.commitWaiting (by simp [Descriptor.inGate, hs])
  next hs =>
    have hin : (s.desc g).inGate = true := by simp [Descriptor.inGate, hs]
    exact h.inGate hin (by exact hin) rfl rfl rfl rfl
  next hs =>
    have hin : (s.desc g).inGate = true := by simp [Descriptor.inGate, hs]
    exact h.inGate hin (by exact hin) rfl rfl rfl rfl

/-- A descriptor with no gate in progress goes to OFF. -/
theorem State.descsKept.toOff (h : s.descsKept x) (hin : (s.desc g).inGate = false) :
    (s.modDesc g (fun d => { d with state := .off, timeoutAt := none })).descsKept x := by
  obtain ⟨hp, hctx, hc, hdef⟩ := h.quiet hin
  exact .modDesc (fun k _ => h k)
    (.of_quiet ⟨hp, hctx, hc, hdef⟩ rfl (fun ht => absurd ht (by simp)) (fun hs => absurd rfl hs))
    (fun _ hr => absurd hr (by simp [Descriptor.running]))

theorem State.descsKept.finishOpen (h : s.descsKept x) (hs : (s.desc g).state = .gateOpen)
    (hclose : (s.desc g).closeEvent = none) : (s.finishOpen g).descsKept x := by
  have hin : (s.desc g).inGate = true := by simp [Descriptor.inGate, hs]
  have hmark : (s.modDesc g (fun e => { e with lastGate := true })).descsKept x :=
    h.inGate hin (by exact hin) rfl rfl rfl rfl
  unfold State.finishOpen
  dsimp only
  split
  · exact h.inGate hin rfl (Option.isSome_map ..) rfl rfl rfl
  · exact h.inGate hin (by exact hin) (Option.isSome_map ..) rfl rfl rfl
  · refine hmark.closeGate ?_ ?_ _
    · rw [State.desc_modDesc_self]
      exact hin
    · rw [State.desc_modDesc_self]
      exact hclose
  · exact hmark

theorem State.descsKept.finish (h : s.descsKept x) (hclose : (s.desc g).closeEvent = none) :
    (s.finish g).descsKept x := by
  unfold State.finish
  split
  · exact h
  · split
    · exact h
    next hs => exact h.toOff (by simp [Descriptor.inGate, hs])
    next hs => exact h.toOff (by simp [Descriptor.inGate, hs])
    next hs => exact h.finishOpen hs hclose
    next hs =>
      have hin : (s.desc g).inGate = true := by simp [Descriptor.inGate, hs]
      exact h.inGate hin (by exact hin) rfl rfl rfl rfl

theorem State.descsKept.abort (h : s.descsKept x) (hclose : (s.desc g).closeEvent = none) :
    (s.abort g).descsKept x := by
  unfold State.abort
  split
  · exact h
  · refine .enterOff (fun k hk => (h k).of_desc (.modDesc s g _) (DescOnly.modDesc s g _ k hk)) ?_ ?_
    · simp
    · simpa using (h g).1.deferred hclose

theorem State.descsKept.enable (h : s.descsKept true) (hoff : (s.desc g).state = .off)
    (hfn : (s.desc g).active.fn ≠ .none) : (s.enable g).descsKept true := by
  obtain ⟨hp, hctx, hc, hdef⟩ := h.quiet (g := g) (by simp [Descriptor.inGate, hoff])
  obtain ⟨-, -, -, -, ht, -⟩ := (h g).1
  unfold State.enable
  refine State.descsKept.judge ?_ g
  exact .modDesc (fun k _ => h k)
    (.of_quiet ⟨hp, hctx, hc, hdef⟩ rfl (fun hs => absurd (ht hs) (by simp [Descriptor.running, hoff])) (fun _ => hfn))
    (fun _ hr => absurd hr (by simp [Descriptor.running]))

theorem State.descsKept.slots (h : s.descsKept x) (set : Byte) {f : SlotId → State → State}
    (hf : ∀ k u, EngineOnly u (f k u)) (hd : ∀ k u g, (f k u).desc g = u.desc g) : (s.forSlots set f).descsKept x := by
  refine State.forEight_keeps (P := State.descsKept x) (fun k u hu => ?_) h
  split
  · exact hu.of_engine (hf k u) (hd k u)
  · exact hu

theorem State.release_desc (s : State) (k : SlotId) (g : Desc) : (s.release k).desc g = s.desc g := by
  unfold State.release
  split
  · split <;> rfl
  · rfl

theorem State.descsKept.block (h : s.descsKept true) (hb : BlockStep s t) : t.descsKept true := by
  cases hb with
  | unchanged => exact h
  | clearStatus => exact h.undisturbed (.of_eq (fun _ => rfl) rfl rfl rfl (fun _ => rfl))
  | restart => exact h.undisturbed (.of_eq (fun _ => rfl) rfl rfl rfl (fun _ => rfl))
  | configure sel freq detect action revert hhalt => exact h.halted (by simp [Timebase.counting, hhalt]) (fun _ => rfl)
  | start hhalt =>
    refine h.halted (by simp [Timebase.counting, hhalt]) (fun g => ?_)
    unfold State.startTb
    dsimp only
    rw [(Undisturbed.forChans (fun c u => .modChan u c (by rfl)) _).desc, (Undisturbed.postTimebase _ _).desc]
    rfl
  | stop => exact h.enterHalt _
  | selectHalt => exact h.undisturbed (.modTb s (fun hc => by exact hc))
  | relock => exact (h.undisturbed (.modTb s (fun hc => by exact hc))).beginRelock _ _
  | leaveHoldover => exact (h.undisturbed (.modTb s (fun hc => by exact hc))).undisturbed (.postTimebase _ _)
  | storeAux role pol huse => exact h.storeAux huse role pol
  | storeSettings c new hbusy => exact h.storeSettings c new hbusy
  | startCal c _ hfree => exact h.startCal c hfree
  | write g cp =>
    exact .modDesc (fun k _ => h k) (h g).1 (fun hx hr => (State.ready_modDesc (by rfl)).trans ((h g).2 hx hr))
  | commit g => exact h.commitNow g
  | enable g _ hoff hfn => exact h.enable hoff hfn
  | finish g hclose => exact h.finish hclose
  | abort g hclose => exact h.abort hclose
  | clearLost => exact h.of_engine (.modSlot s _ _) (fun _ => rfl)
  | hold set => exact h.slots set (fun k u => .modSlot u k _) (fun _ _ _ => rfl)
  | release set => exact h.slots set (fun k u => .release u k) (fun k u g => u.release_desc k g)
  | clearStats set => exact h.slots set (fun k u => .modSlot u k _) (fun _ _ _ => rfl)
  | setStream set => exact h.undisturbed (.forChans (fun c u => .modChan u c (by rfl)) s)
  | clearStream => exact h.undisturbed (.of_eq (fun _ => rfl) rfl rfl rfl (fun _ => rfl))
  | mask => exact h.undisturbed (.of_eq (fun _ => rfl) rfl rfl rfl (fun _ => rfl))

/-! ## Events -/

theorem Descriptor.idle_sound (staged active : GateCopy) : (Descriptor.idle staged active).sound :=
  .of_quiet ⟨rfl, rfl, rfl, rfl⟩ rfl (fun h => absurd h (by simp [Descriptor.idle])) (fun h => absurd rfl h)

/-- With every descriptor idle the engine is sound. -/
theorem State.descsKept_of_idle (h : ∀ g, ∃ staged active, s.desc g = Descriptor.idle staged active) :
    s.descsKept x := by
  intro g
  obtain ⟨staged, active, e⟩ := h g
  unfold State.descKept
  rw [e]
  exact ⟨Descriptor.idle_sound _ _, fun _ hr => absurd hr (by simp [Descriptor.idle, Descriptor.running])⟩

theorem State.restartMeasure_desc (s : State) (g : Desc) :
    s.restartMeasure.desc g = Descriptor.idle (s.desc g).staged (s.desc g).active := by
  have hm : ((s.dropCal .restart).mapChans (fun _ ch => ch.measureReset)).desc g = s.desc g := by
    rw [State.mapChans_eq, State.dropCal_eq]
    rfl
  unfold State.restartMeasure
  dsimp only
  generalize (s.dropCal .restart).mapChans (fun _ ch => ch.measureReset) = u at hm ⊢
  have hr := u.resetDescs_desc (fun d => Descriptor.idle d.staged d.active) g
  generalize u.resetDescs (fun d => Descriptor.idle d.staged d.active) = v at hr ⊢
  rw [hm] at hr
  exact hr

theorem State.restartFull_desc (s : State) (g : Desc) : s.restartFull.desc g = Descriptor.reset := by
  unfold State.restartFull
  dsimp only
  generalize (s.dropCal .restart).mapChans (fun c ch => ch.fullReset c) = u
  have hr := u.resetDescs_desc (fun _ => Descriptor.reset) g
  generalize u.resetDescs (fun _ => Descriptor.reset) = v at hr ⊢
  exact hr

theorem State.restartNow_desc (s : State) (g : Desc) :
    ∀ kind, ∃ staged active, (s.restartNow kind).desc g = Descriptor.idle staged active
  | .measure => ⟨_, _, s.restartMeasure_desc g⟩
  | .full => by
    have hd := s.restartFull_desc g
    unfold State.restartNow
    dsimp only
    generalize s.restartFull = u at hd ⊢
    exact ⟨_, _, hd⟩

theorem State.reset_desc (g : Desc) : State.reset.desc g = Descriptor.reset := by
  simp [State.reset, State.desc]

theorem State.descsKept.frameDone (h : s.descsKept true) (f : TxFrame) : (s.frameDone f).descsKept true := by
  unfold State.frameDone
  dsimp only
  split
  · exact State.descsKept_of_idle (fun g => State.restartNow_desc _ g _)
  · exact h.undisturbed (.of_eq (fun _ => rfl) rfl rfl rfl (fun _ => rfl))

theorem State.descsKept.effect {i : Instr} (hi : i.payload = none) (h : s.descsKept true) :
    (i.effect s).descsKept true := by
  have link {u : State} (hd : ∀ g, u.desc g = s.desc g) (htb : u.tb.counting = s.tb.counting) (haux : u.aux = s.aux)
      (hcal : u.cal = s.cal) (hch : u.chans = s.chans) : u.descsKept true :=
    h.undisturbed (.of_eq hd htb haux hcal (fun c => by unfold State.chan; rw [hch]))
  have window := h.undisturbed (.modTb s (f := Timebase.newWindow) (fun hc => by exact hc))
  match i, hi with
  | .powerOnReset, _ => exact State.descsKept_of_idle (fun g => ⟨_, _, State.reset_desc g⟩)
  | .startUpEnd, _ =>
    dsimp only [Instr.effect]
    split
    · exact link (fun _ => rfl) rfl rfl rfl rfl
    · exact h
  | .monitorWindowEnd, _ =>
    dsimp only [Instr.effect]
    split
    · exact window.goodWindow
    · exact window.monitorAbsent
  | .starvation, _ =>
    exact State.descsKept.monitorAbsent (h.undisturbed (.modTb s (fun hc => by exact hc)))
  | .acquireEnd, _ =>
    dsimp only [Instr.effect]
    split
    next hs => exact h.acquireDone (by simp [Timebase.counting, hs])
    next => exact h
  | .relockEnd, _ =>
    dsimp only [Instr.effect]
    split
    · exact (h.undisturbed (.modTb s (fun _ => by rfl))).undisturbed (.postTimebase _ _)
    · exact h
  | .inputEdge input rising tick bins chans takings, _ =>
    have hl : ({ s with levels := s.levels.put input rising } : State).descsKept true :=
      link (fun _ => rfl) rfl rfl rfl rfl
    dsimp only [Instr.effect]
    split
    · exact (hl.advanceTo tick).processEdge input rising tick bins chans takings
    · exact hl
  | .holdoffExpiry _, _ => exact h.expiry _
  | .deadTimeExpiry _, _ => exact h.expiry _
  | .calHit tick b, _ =>
    dsimp only [Instr.effect]
    split
    · exact (h.advanceTo tick).takeHit b
    · exact h
  | .calDeadline, _ => exact h.expiry _
  | .gateNominalEnd _, _ => exact h.expiry _
  | .gateTimeout _, _ => exact h.expiry _
  | .recordFormation _, _ => exact h.expiry _
  | .frameReceived samples, _ =>
    dsimp only [Instr.effect]
    split
    · exact link (fun _ => rfl) rfl rfl rfl rfl
    · exact h
  | .receiveGapExpiry, _ => exact link (fun _ => rfl) rfl rfl rfl rfl
  | .linkBreak, _ =>
    dsimp only [Instr.effect]
    split
    · exact h
    · have hd := s.restartFull_desc
      generalize s.restartFull = u at hd ⊢
      exact State.descsKept_of_idle (fun g => ⟨_, _, hd g⟩)
  | .transmitEnd, _ =>
    dsimp only [Instr.effect]
    split
    · split
      · exact h.frameDone _
      · exact h
    · exact h
  | .lnkclkStop, _ => exact link (fun _ => rfl) rfl rfl rfl rfl
  | .lnkclkReturn, _ => exact link (fun _ => rfl) rfl rfl rfl rfl
  | .lnkRxReturnToMark, _ => exact link (fun _ => rfl) rfl rfl rfl rfl
  | .rstNRelease, _ =>
    dsimp only [Instr.effect]
    split
    · exact link (fun _ => rfl) rfl rfl rfl rfl
    · exact h
  | .referenceEdge, _ =>
    refine h.undisturbed (.modTb s (fun hc => ?_))
    unfold Timebase.referenceEdge
    split <;> exact hc

/-- Settles O58: soundness of each descriptor is kept by each operation of the engine, readiness of a running one by what the
other blocks may do while it runs; the entry into HALT leaves none running. -/
theorem stepKeepsEngineSound : Obligations.StepKeepsEngineSound := by
  unfold Obligations.StepKeepsEngineSound
  intro s t hs h
  rw [State.engineSound_iff] at hs ⊢
  refine step_keeps (P := State.descsKept true)
    (fun _ _ hu => hu.undisturbed (.of_eq (fun _ => rfl) rfl rfl rfl (fun _ => rfl))) (fun u hu => hu.tick)
    (fun _ _ _ hu he => ?_) hs h
  exact exec_keeps (P := State.descsKept true)
    (fun _ _ hu => hu.undisturbed (.of_eq (fun _ => rfl) rfl rfl rfl (fun _ => rfl)))
    (fun _ hu => hu.undisturbed (.arbitrate _)) (fun _ _ hp _ hcan hu => hu.block (block_step hp hcan))
    (fun _ hi _ hu => hu.effect hi) hu he

end

end Sys2Proof.Machine
end

section
/-!
Steps, power-on, and the statements of one operation: the front of the queue and the idle part (R6, R159), the power-on reset
(R171), a publish (R124), a command that waits or overruns (R158, R159) and a RESTART (R170).
-/

namespace Sys2Proof.Machine

/-! ## The part after reset -/

/-- Settles O55: each block by the lemma on its own reset values. -/
theorem resetIsSound : Obligations.ResetIsSound := by
  unfold Obligations.ResetIsSound
  refine ⟨State.reset_timebaseSound, State.reset_calSound, ?_, State.storeSound_of_reset rfl, StreamUnit.reset_sound,
    Link.reset_sound⟩
  rw [State.engineSound_iff]
  exact State.descsKept_of_idle (fun g => ⟨_, _, State.reset_desc g⟩)

/-! ## Steps -/

theorem step_pending {s : State} {i : Instr} {rest : List Instr} (h : s.pending = i :: rest) :
    step s = exec i { s with pending := rest } := by
  unfold step
  rw [h]

theorem step_idle {s : State} (h : s.pending = []) : step s = idleStep s := by
  unfold step
  rw [h]

/-- Settles O1: it is the step itself, read off the queue. -/
theorem stepTakesFrontOfQueue : Obligations.StepTakesFrontOfQueue := by
  unfold Obligations.StepTakesFrontOfQueue
  exact fun _ _ _ h => step_pending h

theorem idleStep_executes {s : State} {p : List Byte} {rest : List (List Byte)} (hq : s.link.commandQueue = p :: rest)
    (hc : s.canExecute p = true) : idleStep s = exec (decodeCommand p) s := by
  simp [idleStep, hq, hc]

theorem idleStep_ticks {s : State} (h : ∀ p rest, s.link.commandQueue = p :: rest → s.canExecute p = false) :
    idleStep s = .next s.tick := by
  unfold idleStep
  split
  next p rest hq => rw [if_neg (by simp [h p rest hq])]
  next => rfl

theorem atOrAfter_self (x : Coarse) : atOrAfter x x = true := by simp [atOrAfter]

/-- The next instant that is not reached yet lies at least a cycle ahead. -/
theorem State.cyclesAhead_pos (s : State) {far : Nat} (hfar : 0 < far) : 0 < s.cyclesAhead far := by
  have go : ∀ (l : List Wait) (d : Nat), 0 < d → 0 < l.foldl (fun d w =>
      match s.instantOf w with
      | some x => if atOrAfter s.tb.coarse x then d else min d (x - s.tb.coarse).toNat
      | none => d) d := by
    intro l
    induction l with
    | nil => exact fun _ h => h
    | cons w l ih =>
      intro d hd
      refine ih _ ?_
      dsimp only
      split
      next x _ =>
        split
        · exact hd
        next hx =>
          refine lt_min hd (Nat.pos_of_ne_zero fun h0 => hx ?_)
          have : x = s.tb.coarse := by bv_omega
          rw [this]
          exact atOrAfter_self _
      next => exact hd
  exact go Wait.all far hfar

/-- To the next count the counter goes at once, all that is due at the present one expiring first (R6, R7). -/
theorem State.advanceTo_succ (s : State) : s.advanceTo (s.tb.coarse + 1) = s.settle.atCount (s.tb.coarse + 1) := by
  have h1 : (s.tb.coarse + 1 - s.tb.coarse).toNat = 1 := by bv_omega
  unfold State.advanceTo
  rw [h1]
  unfold State.advance
  dsimp only
  rw [s.settle_tb, h1, if_neg]
  have := s.settle.cyclesAhead_pos Nat.one_pos
  omega

theorem Timebase.movedTo_succ (tb : Timebase) :
    tb.movedTo (tb.coarse + 1) = { tb with coarse := tb.coarse + 1, ticked := true } := by
  simp [Timebase.movedTo]

theorem State.tick_counting {s : State} (h : s.tb.counting = true) :
    s.tick = { s.settle with tb := { s.tb with coarse := s.tb.coarse + 1, ticked := true } } := by
  unfold State.tick
  rw [if_pos h, s.advanceTo_succ]
  unfold State.atCount State.modTb
  dsimp only
  rw [s.settle_tb, Timebase.movedTo_succ]

theorem State.tick_halted {s : State} (h : s.tb.counting = false) : s.tick = s := by simp [State.tick, h]

theorem Timebase.counting_of_run {tb : Timebase} (h : tb.state = .run ∨ tb.state = .relock) : tb.counting = true := by
  rcases h with h | h <;> simp [Timebase.counting, h]

theorem Timebase.counting_of_halt {tb : Timebase} (h : tb.state = .halt ∨ tb.state = .acquire) : tb.counting = false := by
  rcases h with h | h <;> simp [Timebase.counting, h]

/-- Settles O2: with nothing pending the step is the idle one, and its tick is one count, at which what is due expires. -/
theorem idlePartExecutesHeadCommandElseTicks : Obligations.IdlePartExecutesHeadCommandElseTicks := by
  unfold Obligations.IdlePartExecutesHeadCommandElseTicks
  intro s hs
  rw [step_idle hs]
  refine ⟨fun p rest hq hc => idleStep_executes hq hc, fun hn => ?_⟩
  rw [idleStep_ticks hn]
  refine ⟨fun h => by rw [State.tick_halted (Timebase.counting_of_halt h)], fun h => ?_⟩
  rw [State.tick_counting (Timebase.counting_of_run h)]
  exact ⟨rfl, fun hd => by rw [hd.settle]⟩

/-! ## Power-on (R171) -/

theorem defaultTable_get (b : Bin) : defaultTable[b] = if b.val < 128 then 8 * b.val + 4 else 1023 := by
  rw [defaultTable, binVector_get]
  rfl

theorem emptyHistogram_get (b : Bin) : emptyHistogram[b] = 0 := by rw [emptyHistogram, binVector_get]

/-- Settles O3: each value is read off the state after reset. -/
theorem powerOnResetSetsPowerOnValues : Obligations.PowerOnResetSetsPowerOnValues := by
  unfold Obligations.PowerOnResetSetsPowerOnValues
  intro s
  have hchan (c : Chan) : (State.chan { State.reset with
      power := .held, levels := s.levels, lnkclk := s.lnkclk, pending := s.pending } c) = Channel.reset c :=
    State.reset_chan c
  refine ⟨_, rfl, rfl, rfl, rfl, rfl, rfl, ⟨?_, ?_, ?_, ?_⟩, fun c => ?_, fun g => State.reset_desc g, fun k => ?_,
    ⟨rfl, fun c => ?_, rfl⟩, rfl, rfl, rfl, rfl⟩
  · rw [hchan]; rfl
  · rw [hchan]; rfl
  · rw [hchan]; rfl
  · rw [hchan]; rfl
  · have honline : State.chanState { State.reset with
        power := .held, levels := s.levels, lnkclk := s.lnkclk, pending := s.pending } c = .online := by
      refine State.online_of ?_ rfl
      rw [hchan]
      fin_cases c <;> rfl
    refine ⟨?_, ?_, ?_, ?_, ?_, ?_, ?_, ?_, ?_, ?_, ?_, ?_, ?_, honline⟩ <;> rw [hchan]
    · rfl
    · rfl
    · rfl
    · rfl
    · rfl
    · rfl
    · rfl
    · exact defaultTable_get
    · rfl
    · rfl
    · exact emptyHistogram_get
    · rfl
    · rfl
  · simp [State.reset, State.slot, Slot.reset, Stats.empty]
  · simp [State.reset, StreamUnit.reset]

/-! ### A part that is held or starts up -/

section
variable {s : State}

theorem State.arbitrate_notReady (h : s.power ≠ .ready) : s.arbitrate = s := by simp [State.arbitrate, State.txFree, h]

theorem State.event_notReady (h : s.power ≠ .ready) (f : State → State) : s.event f = .next s := by
  simp [State.event, h]

theorem State.event_ready (h : s.power = .ready) (f : State → State) : s.event f = .next (f s).arbitrate := by
  simp [State.event, h]

theorem runCommand_notReady (h : s.power ≠ .ready) (p : List Byte) (code : Byte) (body : State → State × Answer) :
    runCommand p code body s = .next s := by
  have hb : s.bring p = s := by simp [State.bring, State.receiving, h]
  have hc : s.canExecute p = false := by simp [State.canExecute, h]
  simp [runCommand, hb, hc, State.arbitrate_notReady h]

end

/-- Settles O4: a command row runs no command, an event row reaches nothing, and the rows of the pins follow them. -/
theorem powerOnResetHoldsUntilStartUpEnds : Obligations.PowerOnResetHoldsUntilStartUpEnds := by
  unfold Obligations.PowerOnResetHoldsUntilStartUpEnds
  refine ⟨fun i s hpower hreset hrst hstart => ?_, fun s => ⟨fun h => ?_, fun h => ?_⟩⟩
  · have event := State.event_notReady hpower
    cases hp : i.payload with
    | some p =>
      rw [exec_command hp, runCommand_notReady hpower]
      cases i <;> cases hp <;> rfl
    | none =>
      match i, hp with
      | .powerOnReset, _ => exact absurd rfl hreset
      | .startUpEnd, _ => exact congrArg _ (if_neg fun h => hstart ⟨h, rfl⟩)
      | .monitorWindowEnd, _ => exact (event (Instr.effect .monitorWindowEnd)).trans rfl
      | .starvation, _ => exact (event (Instr.effect .starvation)).trans rfl
      | .acquireEnd, _ => exact (event (Instr.effect .acquireEnd)).trans rfl
      | .relockEnd, _ => exact (event (Instr.effect .relockEnd)).trans rfl
      | .inputEdge .., _ => exact congrArg _ (if_neg fun h => hpower h.1)
      | .holdoffExpiry a, _ => exact (event (Instr.effect (.holdoffExpiry a))).trans rfl
      | .deadTimeExpiry a, _ => exact (event (Instr.effect (.deadTimeExpiry a))).trans rfl
      | .calHit a b, _ => exact (event (Instr.effect (.calHit a b))).trans rfl
      | .calDeadline, _ => exact (event (Instr.effect .calDeadline)).trans rfl
      | .gateNominalEnd a, _ => exact (event (Instr.effect (.gateNominalEnd a))).trans rfl
      | .gateTimeout a, _ => exact (event (Instr.effect (.gateTimeout a))).trans rfl
      | .recordFormation a, _ => exact (event (Instr.effect (.recordFormation a))).trans rfl
      | .frameReceived a, _ => exact (event (Instr.effect (.frameReceived a))).trans rfl
      | .receiveGapExpiry, _ => exact (event (Instr.effect .receiveGapExpiry)).trans rfl
      | .linkBreak, _ => exact (event (Instr.effect .linkBreak)).trans rfl
      | .transmitEnd, _ => exact (event (Instr.effect .transmitEnd)).trans rfl
      | .lnkclkStop, _ => rfl
      | .lnkclkReturn, _ =>
        show Host.Outcome.next (State.arbitrate _) = _
        rw [State.arbitrate_notReady (by exact hpower)]
        dsimp only [State.modLink]
        cases s.link.rxLine <;> cases s.lnkclk <;> rfl
      | .lnkRxReturnToMark, _ =>
        show Host.Outcome.next (s.modLink _) = _
        dsimp only [State.modLink]
        cases s.link.rxLine <;> rfl
      | .rstNRelease, _ => exact congrArg _ (if_neg fun h => hrst ⟨h, rfl⟩)
      | .referenceEdge, _ => exact (event (Instr.effect .referenceEdge)).trans rfl
  · exact congrArg _ (if_pos h)
  · show Host.Outcome.next (if s.power = .startUp then _ else s) = _
    rw [if_pos h]
    rfl

/-! ## A publish (R124, R136) -/

section
variable {s : State} {k : SlotId}

theorem State.publish_unheld (h : (s.slot k).held = false) (r : Record) : s.publish k r = s.present k r := by
  simp [State.publish, h]

theorem State.publish_held (h : (s.slot k).held = true) (r : Record) :
    s.publish k r =
      s.modSlot k (fun sl => { sl with waiting := some r, lost := sl.lost || sl.waiting.isSome }) := by
  simp [State.publish, h]

theorem State.present_slot (s : State) (k j : SlotId) (r : Record) :
    (s.present k r).slot j =
      if j = k then { s.slot k with published := some r, publishCount := (s.slot k).publishCount + 1,
                                    stats := (s.slot k).stats.take r }
      else s.slot j := by
  unfold State.present
  rw [State.post_slot, State.slot_modSlot]

/-- A posting looks at the mask and the queue alone. -/
theorem State.post_link_congr {s t : State} (h : t.link = s.link) (key : NoticeKey) :
    (t.post key).link = (s.post key).link := by
  unfold State.post
  rw [State.modLink_link, State.modLink_link, h]

theorem State.present_link (s : State) (k : SlotId) (r : Record) : (s.present k r).link = (s.post (.result k)).link :=
  State.post_link_congr rfl _

end

/-- Settles O36: a slot that is not held presents the record, a held one keeps it pending. -/
theorem publishPresentsOrWaits : Obligations.PublishPresentsOrWaits := by
  unfold Obligations.PublishPresentsOrWaits
  intro s k r
  have hdescs : (s.publish k r).descs = s.descs := by
    unfold State.publish
    split <;> rfl
  refine ⟨fun h => ?_, fun h => ?_, fun j hj => ?_, hdescs, (EngineOnly.publish s k r).tb, (EngineOnly.publish s k r).chans⟩
  · rw [State.publish_unheld h, State.present_slot, if_pos rfl]
    exact ⟨rfl, State.present_link s k r⟩
  · rw [State.publish_held h, State.slot_modSlot_self]
    exact ⟨rfl, rfl⟩
  · unfold State.publish
    split
    · rw [State.slot_modSlot, if_neg hj]
    · rw [State.present_slot, if_neg hj]

/-! ## Commands that wait (R158, R159) -/

/-- The GATE commands of the right length that name descriptor `g` (R92, R173). -/
def namesGate (p : List Byte) (g : Desc) : Prop :=
  p = [0x41, eightByte g] ∨ p = [0x42, eightByte g] ∨ p = [0x44, eightByte g]
  ∨ (∃ m : Byte, p = [0x43, eightByte g, m])
  ∨ ∃ copy : List Byte, copy.length = 20 ∧ p = 0x40 :: eightByte g :: copy

theorem readEight_eq_some_iff {b : Byte} {k : Fin 8} : readEight b = some k ↔ b = eightByte k := by
  refine ⟨fun h => ?_, fun h => h ▸ readEight_eightByte k⟩
  rcases readEight_cases b with ⟨j, hj, hb⟩ | ⟨hn, -⟩
  · rw [hj] at h
    cases h
    exact hb
  · rw [hn] at h
    cases h

theorem gateTarget_eq_some_iff {p : List Byte} {g : Desc} : gateTarget p = some g ↔ namesGate p g := by
  constructor
  · intro h
    unfold gateTarget at h
    split at h
    next code b rest =>
      split at h
      next hlen =>
        have hb := readEight_eq_some_iff.mp h
        subst hb
        rcases hlen with ⟨rfl, hl⟩ | ⟨rfl, hl⟩ | ⟨rfl | rfl | rfl, hl⟩
        · exact .inr (.inr (.inr (.inr ⟨rest, hl, rfl⟩)))
        · obtain ⟨m, rfl⟩ := List.length_eq_one_iff.mp hl
          exact .inr (.inr (.inr (.inl ⟨m, rfl⟩)))
        · rw [List.length_eq_zero_iff.mp hl]; exact .inl rfl
        · rw [List.length_eq_zero_iff.mp hl]; exact .inr (.inl rfl)
        · rw [List.length_eq_zero_iff.mp hl]; exact .inr (.inr (.inl rfl))
      next => cases h
    next => cases h
  · rintro (rfl | rfl | rfl | ⟨m, rfl⟩ | ⟨copy, hl, rfl⟩) <;> simp [gateTarget, *]

theorem State.gateBusy_iff (s : State) (p : List Byte) :
    s.gateBusy p = true ↔ ∃ g : Desc, namesGate p g ∧ (s.desc g).closeEvent ≠ none := by
  unfold State.gateBusy
  cases h : gateTarget p with
  | none =>
    refine ⟨fun e => Bool.noConfusion e, fun ⟨g, hg, _⟩ => ?_⟩
    rw [gateTarget_eq_some_iff.mpr hg] at h
    cases h
  | some g =>
    refine ⟨fun e => ⟨g, gateTarget_eq_some_iff.mp h, Option.isSome_iff_ne_none.mp e⟩, fun ⟨k, hk, hc⟩ => ?_⟩
    rw [gateTarget_eq_some_iff.mpr hk] at h
    cases h
    exact Option.isSome_iff_ne_none.mpr hc

theorem State.canExecute_eq_false_iff (s : State) (p : List Byte) :
    s.canExecute p = false ↔ s.power ≠ .ready ∨ s.lnkclk = false ∨ s.link.restart ≠ none
      ∨ 8 ≤ s.link.replyQueue.length ∨ ∃ g : Desc, namesGate p g ∧ (s.desc g).closeEvent ≠ none := by
  rw [← s.gateBusy_iff p]
  show (decide (s.power = .ready) && s.lnkclk && s.link.restart.isNone && decide (s.link.replyQueue.length < 8)
    && !s.gateBusy p) = false ↔ _
  simp only [Bool.and_eq_false_iff, decide_eq_false_iff_not, Bool.not_eq_false',
    Option.isNone_eq_false_iff, Option.isSome_iff_ne_none, Nat.not_lt, or_assoc, ne_eq]

/-- A command whose frame comes to a full queue is an overrun (R158). -/
theorem runCommand_overruns {s : State} {p : List Byte} (hh : s.link.commandQueue.head? ≠ some p)
    (hfull : s.link.commandQueue.length = 4) (hready : s.power = .ready) (hclk : s.lnkclk = true)
    (hline : s.link.rxLine = .looking ∨ s.link.rxLine = .awaitMark) (hbuf : s.link.rxBuffer = []) (code : Byte)
    (body : State → State × Answer) :
    runCommand p code body s = .next (s.modLink (fun l =>
      { l with rxLine := .looking, rxGap := false, overruns := satInc 65535 l.overruns })).arbitrate := by
  have hrec : s.receiving = true := by
    rcases hline with h | h <;> simp [State.receiving, hready, hclk, h, RxLine.between]
  have hb : s.bring p = s.modLink (fun l =>
      { l with rxLine := .looking, rxGap := false, overruns := satInc 65535 l.overruns }) := by
    unfold State.bring
    rw [if_neg hh, if_pos (by simp [hrec, hbuf])]
    simp [State.modLink, Link.enqueue, hfull, Config.commandQueueSize, Config.sat16]
  unfold runCommand
  dsimp only
  rw [hb, if_neg (fun h => hh h.1)]

/-- Settles O48: a held command is refused by `canExecute`, cause by cause, and a fifth command is counted. -/
theorem commandWaitsOrOverruns : Obligations.CommandWaitsOrOverruns := by
  unfold Obligations.CommandWaitsOrOverruns
  intro s i p hp
  refine ⟨s.canExecute_eq_false_iff p, fun hh hheld => ?_, fun hh hfull hready hclk hline hbuf => ?_⟩
  · rw [exec_command hp]
    exact runCommand_waits hh ((s.canExecute_eq_false_iff p).mpr hheld) _ _
  · rw [exec_command hp]
    exact runCommand_overruns hh hfull hready hclk hline hbuf _ _

/-! ## RESTART (R170) -/

theorem readRestartKind_cases (b : Byte) :
    (b = 1 ∧ readRestartKind b = some .measure) ∨ (b = 2 ∧ readRestartKind b = some .full)
      ∨ (b ≠ 1 ∧ b ≠ 2 ∧ readRestartKind b = none) := by
  revert b
  decide

/-- While a restart is pending no command is executed. -/
theorem State.canExecute_of_restart {s : State} {kind : RestartKind} (h : s.link.restart = some kind) (p : List Byte) :
    s.arbitrate.canExecute p = false :=
  (State.canExecute_eq_false_iff _ p).mpr (.inr (.inr (.inl (by rw [s.arbitrate_link]; simp [h]))))

/-- Settles O51: the block of RESTART marks the restart, and a marked restart holds every command up. -/
theorem restartWaitsForItsAck : Obligations.RestartWaitsForItsAck := by
  unfold Obligations.RestartWaitsForItsAck
  intro s b hex
  have run (i : Instr) (hp : i.payload = some [0x03, b]) (hb : i.block = withLength 1 [b] (restartBody [b])) :
      exec i s = .next ((restartBody [b] (s.taken [0x03, b])).1.reply 0x03
        (restartBody [b] (s.taken [0x03, b])).2).arbitrate := by
    rw [exec_command hp, hb]
    exact command_executes (args := [b]) hex rfl _
  have harg : arg [b] 0 = b := rfl
  refine ⟨?_, ?_, fun h1 h2 => ?_⟩
  · rintro rfl
    exact ⟨run (.restartFull [2]) rfl rfl, State.canExecute_of_restart (kind := .full) rfl⟩
  · rintro rfl
    exact ⟨run (.restartMeasure [1]) rfl rfl, State.canExecute_of_restart (kind := .measure) rfl⟩
  · rw [run (.restartMeasure [b]) rfl rfl]
    rcases readRestartKind_cases b with ⟨e, -⟩ | ⟨e, -⟩ | ⟨-, -, hn⟩
    · exact absurd e h1
    · exact absurd e h2
    · unfold restartBody
      rw [harg, hn]

end Sys2Proof.Machine
end

section
/-!
Notices and values: what a posting makes of the queue and NOTICE MASK of it (R161, R163), and the quotients and means of the
records and the statistics (R104, R113 to R115, R129 to R132).
-/

namespace Sys2Proof.Machine

/-! ## A command that is executed -/

/-- The row of a command that is executed runs its block on the state without the command (R159). -/
theorem exec_executes {i : Instr} {p : List Byte} (hp : i.payload = some p) {s : State} (h : s.executes p = true) :
    exec i s = .next ((i.block (s.taken p)).1.reply (p.headD 0) (i.block (s.taken p)).2).arbitrate := by
  rw [exec_command hp]
  exact runCommand_executes h _ _

/-- The same for a command with the number of argument bytes that R173 gives it, by what its block makes of that state. -/
theorem exec_body {i : Instr} {p args : List Byte} {n : Nat} {body : State → State × Answer} (hp : i.payload = some p)
    (hb : i.block = withLength n args body) (hl : args.length = n) {s : State} (hex : s.executes p = true) {u : State}
    {a : Answer} (h : body (s.taken p) = (u, a)) : exec i s = .next (u.reply (p.headD 0) a).arbitrate := by
  rw [exec_executes hp hex, hb, withLength, if_pos hl, h]

/-! ## Postings (R161) -/

/-- A posting without an entry of its kind and object joins at the tail. -/
theorem postInto_new {key : NoticeKey} : ∀ {q : List Notice}, (∀ e ∈ q, e.key ≠ key) →
    postInto key q = q ++ [{ key := key, postings := 1 }]
  | [], _ => rfl
  | e :: q, h => by
    rw [postInto, if_neg (h e List.mem_cons_self), postInto_new fun a ha => h a (List.mem_cons_of_mem _ ha)]
    rfl

/-- A posting counts on the first entry of its kind and object, which keeps its place. -/
theorem postInto_count {key : NoticeKey} {e : Notice} {after : List Notice} (he : e.key = key) :
    ∀ {before : List Notice}, (∀ a ∈ before, a.key ≠ key) →
      postInto key (before ++ e :: after) = before ++ { e with postings := satInc Config.sat8 e.postings } :: after
  | [], _ => by rw [List.nil_append, List.nil_append, postInto, if_pos he]
  | a :: before, h => by
    rw [List.cons_append, postInto, if_neg (h a List.mem_cons_self),
      postInto_count he fun b hb => h b (List.mem_cons_of_mem _ hb), List.cons_append]

theorem State.post_admitted {s : State} {key : NoticeKey} (h : s.link.mask.admits key = true) :
    s.post key = { s with link := { s.link with noticeQueue := postInto key s.link.noticeQueue } } := by
  rcases s.post_cases key with ⟨h0, -⟩ | ⟨-, e⟩
  · rw [h] at h0
    cases h0
  · exact e

theorem State.post_masked {s : State} {key : NoticeKey} (h : s.link.mask.admits key = false) : s.post key = s := by
  rcases s.post_cases key with ⟨-, e⟩ | ⟨h1, -⟩
  · exact e
  · rw [h] at h1
    cases h1

/-! ## NOTICE MASK (R163) -/

/-- The kinds of a mask read from a byte are the byte without the bits 5 to 7 that the reading ignores. -/
theorem readMask_kindByte (kinds : Byte) (slots : BitVec 8) : (readMask kinds slots).kindByte = kinds &&& 0x1F := by
  have h : ∀ k : Byte, (readMask k 0).kindByte = k &&& 0x1F := by decide
  exact h kinds

theorem noticeMaskBody_range {kinds set high : Byte} (h : high ≠ 0) (s : State) :
    noticeMaskBody [kinds, set, high] s = (s, Answer.refuse .range) := if_pos h

theorem noticeMaskBody_mask (kinds set : Byte) (s : State) :
    noticeMaskBody [kinds, set, 0] s =
      (s.modLink (fun l => { l with
          mask := readMask kinds set
          noticeQueue := s.link.noticeQueue.filter (fun e => (readMask kinds set).admits e.key) }),
        Answer.ack [kinds &&& 0x1F, set, 0,
          BitVec.ofNat 8 (s.link.noticeQueue.length
            - (s.link.noticeQueue.filter (fun e => (readMask kinds set).admits e.key)).length),
          BitVec.ofNat 8 (s.link.noticeQueue.filter (fun e => (readMask kinds set).admits e.key)).length]) := by
  rw [← readMask_kindByte kinds set]
  rfl

/-- Settles O42: the queue by the two cases of a posting, the mask by the block of NOTICE MASK. -/
theorem noticesArePostedAndMasked : Obligations.NoticesArePostedAndMasked := by
  unfold Obligations.NoticesArePostedAndMasked
  intro queues
  have hqueues : queues = Mask.admits := by
    funext m key
    cases key <;> rfl
  rw [hqueues]
  refine ⟨fun s key => ⟨State.post_masked, fun h => ?_⟩, fun s kinds set high hex => ⟨fun hn => ?_, ?_⟩⟩
  · rw [State.post_admitted h]
    exact ⟨postInto_new, fun before e after hq he hb => by dsimp only; rw [hq]; exact postInto_count he hb, rfl⟩
  · exact exec_body (i := .noticeMask [kinds, set, high]) rfl rfl rfl hex (noticeMaskBody_range hn _)
  · rintro rfl
    have h := exec_body (i := .noticeMask [kinds, set, 0]) rfl rfl rfl hex (noticeMaskBody_mask kinds set _)
    rw [State.taken_noticeQueue] at h
    exact h

/-! ## Unsigned values (R104, R113 to R115) -/

/-- The quotient rounded half up lies within a half of the exact one, and above 2^64 − 1 it saturates. -/
theorem unsignedValue_rounded (num : Nat) {den : Nat} (hden : 0 < den) :
    ∃ q : Nat, 2 * den * q ≤ 2 * num + den ∧ 2 * num + den < 2 * den * (q + 1)
      ∧ unsignedValue num den = if q ≤ 2 ^ 64 - 1 then ((q : Int), false) else (2 ^ 64 - 1, true) := by
  obtain ⟨hle, hlt⟩ := roundHalfUp_bounds num hden
  refine ⟨roundHalfUp num den, hle, hlt, ?_⟩
  unfold unsignedValue
  rw [if_neg hden.ne']
  by_cases h : roundHalfUp num den ≤ 2 ^ 64 - 1
  · rw [if_neg (show ¬unsignedTop < _ from Nat.not_lt.mpr h), if_pos h]
  · rw [if_pos (show unsignedTop < _ from Nat.lt_of_not_le h), if_neg h]
    rfl

theorem unsignedValue_zero (num : Nat) : unsignedValue num 0 = (2 ^ 64 - 1, true) := rfl

/-- Settles O34: each value is an unsigned quotient. -/
theorem unsignedValuesRoundHalfUp : Obligations.UnsignedValuesRoundHalfUp := by
  unfold Obligations.UnsignedValuesRoundHalfUp
  intro rounded
  have hvalue (num den : Nat) : rounded num den (unsignedValue num den) :=
    ⟨fun h => h ▸ unsignedValue_zero num, unsignedValue_rounded num⟩
  exact ⟨fun _ _ => hvalue _ _, fun _ _ => hvalue _ _, fun _ _ => hvalue _ _⟩

/-! ## Statistics (R129 to R132) -/

section
variable {st : Stats} {r : Record} {v : Int}

theorem Stats.take_of_none (h : r.value = none) : st.take r = st := by simp [Stats.take, h]

theorem Stats.take_of_ineligible (h : r.completion ≠ .normal ∨ r.overrange = true) : st.take r = st := by
  have he : r.eligible = false := by
    rcases h with h | h <;> simp [Record.eligible, h]
  unfold Stats.take
  split
  · simp [he]
  · rfl

theorem Stats.take_of_eligible (hv : r.value = some v) (hc : r.completion = .normal) (ho : r.overrange = false) :
    st.take r = st.add r.fn v := by
  simp [Stats.take, Record.eligible, hv, hc, ho]

/-- The mean is the sum over the count, rounded half away from zero, negative sums too. -/
theorem Stats.mean_rounded (h : 0 < st.count) :
    ∃ q : Int, st.mean = some q
      ∧ (0 ≤ st.sum → 2 * (st.count : Int) * q ≤ 2 * st.sum + (st.count : Int)
          ∧ 2 * st.sum + (st.count : Int) < 2 * (st.count : Int) * (q + 1))
      ∧ (st.sum < 0 → 2 * (st.count : Int) * (q - 1) < 2 * st.sum - (st.count : Int)
          ∧ 2 * st.sum - (st.count : Int) ≤ 2 * (st.count : Int) * q) :=
  ⟨roundHalfAway st.sum st.count, by simp [Stats.mean, h.ne'], fun hs => roundHalfAway_bounds_of_nonneg hs h,
    fun hs => roundHalfAway_bounds_of_neg hs h⟩

/-- An integer within a half of a quotient lies between integers that bound the quotient. -/
theorem mean_between {low high sum q : Int} {n : Nat} (hn : 0 < n) (hlow : low * n ≤ sum) (hhigh : sum ≤ high * n)
    (hmin : 2 * sum - n ≤ 2 * n * q) (hmax : 2 * n * q ≤ 2 * sum + n) : low ≤ q ∧ q ≤ high := by
  have hpos : (0 : Int) < n := by exact_mod_cast hn
  constructor
  · by_contra h
    have : (n : Int) * q ≤ n * (low - 1) := Int.mul_le_mul_of_nonneg_left (by omega) hpos.le
    nlinarith
  · by_contra h
    have : (n : Int) * (high + 1) ≤ n * q := Int.mul_le_mul_of_nonneg_left (by omega) hpos.le
    nlinarith

theorem Stats.sound.mean (h : st.sound) (hc : 0 < st.count) :
    ∃ low mean high : Int, st.minimum = some low ∧ st.mean = some mean ∧ st.maximum = some high ∧ low ≤ mean
      ∧ mean ≤ high := by
  obtain ⟨-, -, hb⟩ := h
  obtain ⟨low, high, hlow, hhigh, h1, h2⟩ := hb hc
  obtain ⟨q, hq, hpos, hneg⟩ := Stats.mean_rounded hc
  have hbounds : 2 * st.sum - (st.count : Int) ≤ 2 * (st.count : Int) * q
      ∧ 2 * (st.count : Int) * q ≤ 2 * st.sum + (st.count : Int) := by
    rcases lt_or_ge st.sum 0 with hs | hs
    · obtain ⟨hlt, hle⟩ := hneg hs
      exact ⟨hle, by linarith⟩
    · obtain ⟨hle, hlt⟩ := hpos hs
      exact ⟨by linarith, hle⟩
  obtain ⟨hl, hh⟩ := mean_between hc h1 h2 hbounds.1 hbounds.2
  exact ⟨low, q, high, hlow, hq, hhigh, hl, hh⟩

end

/-- Settles O37: taking by the cases of R129 and R130, the mean by the rounding of R132. -/
theorem statisticsTakeRecordsAndGiveTheMean : Obligations.StatisticsTakeRecordsAndGiveTheMean := by
  unfold Obligations.StatisticsTakeRecordsAndGiveTheMean
  refine ⟨fun st r => Stats.take_of_none, fun st r v hv => ⟨Stats.take_of_ineligible, fun hc ho => ?_⟩,
    fun st => Stats.mean_rounded, fun st hs => ⟨fun h0 => by simp [Stats.mean, h0], hs.mean⟩⟩
  rw [Stats.take_of_eligible hv hc ho]
  unfold Stats.add
  refine ⟨fun hf => if_neg hf, fun hf hmax => ?_, fun hf hlt => ?_⟩
  · rw [if_pos hf, if_neg (show ¬st.count < Config.sat32 from Nat.not_lt.mpr hmax)]
  · rw [if_pos hf, if_pos (show st.count < Config.sat32 from hlt)]
    refine ⟨rfl, rfl, rfl, fun a b ha hb => ?_⟩
    dsimp only
    rw [ha, hb]
    constructor
    · show some (if v < a then v else a) = _
      rw [min_def]
      split_ifs <;> simp only [Option.some.injEq] <;> omega
    · show some (if b < v then v else b) = _
      rw [max_def]
      split_ifs <;> simp only [Option.some.injEq] <;> omega

end Sys2Proof.Machine
end

section
/-!
The commands of the result store (R127, R128, R133, R134) and the stream unit: the accounting of offered stamps (R141, R149)
and its two commands (R139, R148).
-/

namespace Sys2Proof.Machine

/-! ## Loops over the slots -/

/-- What a loop over the slots makes of slot `k`, when each round changes its own slot alone, by that slot's value. -/
theorem State.forEight_slot {f : SlotId → State → State} {F : SlotId → Slot → Slot}
    (hd : ∀ k u j, j ≠ k → (f k u).slot j = u.slot j) (hf : ∀ k u, (f k u).slot k = F k (u.slot k)) (s : State)
    (k : SlotId) : (s.forEight f).slot k = F k (s.slot k) := by
  have go : ∀ (l : List SlotId) (u : State), l.Nodup →
      (l.foldl (fun u j => f j u) u).slot k = if k ∈ l then F k (u.slot k) else u.slot k := by
    intro l
    induction l with
    | nil => exact fun _ _ => rfl
    | cons j l ih =>
      intro u hn
      obtain ⟨hj, hl⟩ := List.nodup_cons.mp hn
      rw [List.foldl_cons, ih _ hl]
      by_cases e : k = j
      · subst e
        rw [if_neg hj, if_pos List.mem_cons_self, hf]
      · rw [hd j u k e]
        simp [e]
  have h := go allEight s (by decide)
  rwa [if_pos (mem_allEight k)] at h

theorem State.forSlots_slot {f : SlotId → State → State} {F : SlotId → Slot → Slot}
    (hd : ∀ k u j, j ≠ k → (f k u).slot j = u.slot j) (hf : ∀ k u, (f k u).slot k = F k (u.slot k)) (s : State)
    (set : Byte) (k : SlotId) :
    (s.forSlots set f).slot k = if set.getLsbD k.val then F k (s.slot k) else s.slot k := by
  refine State.forEight_slot (F := fun k sl => if set.getLsbD k.val then F k sl else sl) (fun k u j hj => ?_)
    (fun k u => ?_) s k
  · split
    · exact hd k u j hj
    · rfl
  · split
    · exact hf k u
    · rfl

theorem State.forSlots_modSlot_slot (s : State) (set : Byte) (f : Slot → Slot) (k : SlotId) :
    (s.forSlots set (fun k v => v.modSlot k f)).slot k = if set.getLsbD k.val then f (s.slot k) else s.slot k :=
  State.forSlots_slot (F := fun _ => f) (fun k u j hj => by rw [State.slot_modSlot, if_neg hj])
    (fun k u => State.slot_modSlot_self u k f) s set k

theorem State.forSlots_modSlot_eq (s : State) (set : Byte) (f : Slot → Slot) :
    s.forSlots set (fun k v => v.modSlot k f) =
      { s with slots := (s.forSlots set (fun k v => v.modSlot k f)).slots } :=
  State.forEight_keeps (P := fun u => u = { s with slots := u.slots }) (fun k u hu => by
    split
    · exact congrArg (fun v => v.modSlot k f) hu
    · exact hu) rfl

/-! ## SLOT READ (R134) -/

theorem readEight_none {b : Byte} (h : 8 ≤ b.toNat) : readEight b = none := by
  rcases readEight_cases b with ⟨k, -, rfl⟩ | ⟨hn, -⟩
  · have := k.isLt
    simp only [eightByte, BitVec.toNat_ofNat] at h
    omega
  · exact hn

theorem eightByte_of_toNat {b : Byte} {k : Fin 8} (h : b.toNat = k.val) : b = eightByte k := by
  apply BitVec.eq_of_toNat_eq
  rw [h, eightByte, BitVec.toNat_ofNat]
  omega

theorem readFlag_cases (b : Byte) :
    (b = 0 ∧ readFlag b = some false) ∨ (b = 1 ∧ readFlag b = some true) ∨ (2 ≤ b.toNat ∧ readFlag b = none) := by
  revert b
  decide

section
variable (s : State) (k : SlotId) (f : Byte)

theorem slotReadBody_range {b : Byte} (h : 8 ≤ b.toNat) : slotReadBody [b, f] s = (s, Answer.refuse .range) := by
  simp [slotReadBody, arg, readEight_none h]

theorem slotReadBody_invalid (h : readFlag f = none) :
    slotReadBody [eightByte k, f] s = (s, Answer.invalid 2) := by
  simp [slotReadBody, arg, h]

theorem slotReadBody_ok {clear : Bool} (h : readFlag f = some clear) :
    slotReadBody [eightByte k, f] s =
      (if clear then s.modSlot k (fun sl => { sl with lost := false }) else s, Answer.ack (s.slotData k)) := by
  simp [slotReadBody, arg, h]

end

/-! ## SLOT HOLD, STATS CLEAR and SLOT RELEASE (R127, R128, R133) -/

section
variable (s : State) (set : Byte) {high : Byte}

theorem slotHoldBody_range (h : high ≠ 0) : slotHoldBody [set, high] s = (s, Answer.refuse .range) := if_pos h
theorem statsClearBody_range (h : high ≠ 0) : statsClearBody [set, high] s = (s, Answer.refuse .range) := if_pos h
theorem slotReleaseBody_range (h : high ≠ 0) : slotReleaseBody [set, high] s = (s, Answer.refuse .range) := if_pos h

end

/-- Settles O38: SLOT READ by its operands, the other two by the loop over the slots of their set. -/
theorem slotCommandsChangeWhatTheyName : Obligations.SlotCommandsChangeWhatTheyName := by
  unfold Obligations.SlotCommandsChangeWhatTheyName
  refine ⟨fun s b f hex => ⟨fun hb => ?_, fun k hk => ?_⟩, fun s set high hex => ⟨fun h => ?_, ?_⟩,
    fun s set high hex => ⟨fun h => ?_, ?_⟩⟩
  · exact exec_body (i := .slotRead [b, f]) rfl rfl rfl hex (slotReadBody_range _ f hb)
  · obtain rfl := eightByte_of_toNat hk
    have hdata : (s.taken [0x50, eightByte k, f]).slotData k = s.slotData k := by
      unfold State.slotData
      rw [State.taken_slot]
    rcases readFlag_cases f with ⟨rfl, hf⟩ | ⟨rfl, hf⟩ | ⟨h2, hf⟩
    · have h := exec_body (i := .slotRead [eightByte k, 0]) rfl rfl rfl hex (slotReadBody_ok _ k 0 hf)
      rw [hdata] at h
      exact ⟨fun h2 => absurd h2 (by decide), fun _ => ⟨_, h, rfl, fun j => by simp⟩⟩
    · have h := exec_body (i := .slotRead [eightByte k, 1]) rfl rfl rfl hex (slotReadBody_ok _ k 1 hf)
      rw [hdata, if_pos rfl] at h
      refine ⟨fun h2 => absurd h2 (by decide), fun _ => ⟨_, h, rfl, fun j => ?_⟩⟩
      rw [State.slot_modSlot, State.taken_slot, State.taken_slot]
      by_cases e : j = k
      · simp [e]
      · simp [e]
    · exact ⟨fun _ => exec_body (i := .slotRead [eightByte k, f]) rfl rfl rfl hex (slotReadBody_invalid _ k f hf),
        fun h1 => absurd h1 (by omega)⟩
  · exact exec_body (i := .slotHold [set, high]) rfl rfl rfl hex (slotHoldBody_range _ set h)
  · rintro rfl
    refine ⟨_, exec_body (i := .slotHold [set, 0]) rfl rfl rfl hex rfl, State.forSlots_modSlot_eq _ _ _, fun k => ?_⟩
    rw [← State.taken_slot s [0x51, set, 0] k]
    exact State.forSlots_modSlot_slot _ _ _ k
  · exact exec_body (i := .statsClear [set, high]) rfl rfl rfl hex (statsClearBody_range _ set h)
  · rintro rfl
    refine ⟨_, exec_body (i := .statsClear [set, 0]) rfl rfl rfl hex rfl, State.forSlots_modSlot_eq _ _ _, fun k => ?_⟩
    rw [← State.taken_slot s [0x53, set, 0] k]
    exact State.forSlots_modSlot_slot _ _ _ k

/-! ### The release of a slot -/

/-- A slot after its release: no longer held, its pending record presented (R128). -/
def Slot.released (sl : Slot) : Slot :=
  if sl.held then
    match sl.waiting with
    | none => { sl with held := false }
    | some r => { sl with held := false, waiting := none, published := some r, publishCount := sl.publishCount + 1
                          stats := sl.stats.take r }
  else sl

theorem State.release_slot (s : State) (k : SlotId) : (s.release k).slot k = (s.slot k).released := by
  unfold State.release Slot.released
  split
  · split
    next r hr => rw [State.present_slot, if_pos rfl, State.slot_modSlot_self, hr]
    next hr => rw [State.slot_modSlot_self, hr]
  · rfl

theorem State.release_slot_other (s : State) {k j : SlotId} (h : j ≠ k) : (s.release k).slot j = s.slot j := by
  unfold State.release
  split
  · split
    · rw [State.present_slot, if_neg h, State.slot_modSlot, if_neg h]
    · rw [State.slot_modSlot, if_neg h]
  · rfl

theorem State.release_descs (s : State) (k : SlotId) : (s.release k).descs = s.descs := by
  unfold State.release
  split
  · split <;> rfl
  · rfl

/-- A release presents a record: the slot is held with one pending (R128). -/
def Slot.presents (sl : Slot) : Bool := sl.held && sl.waiting.isSome

theorem State.release_link (s : State) (k : SlotId) :
    (s.release k).link = if (s.slot k).presents then (s.post (.result k)).link else s.link := by
  unfold State.release Slot.presents
  split
  next hh =>
    split
    next r hr =>
      rw [hh, hr, State.present_link]
      exact State.post_link_congr rfl _
    next hr => rw [hr, Option.isSome_none, Bool.and_false]; rfl
  next hh => rw [Bool.eq_false_iff.mpr hh, Bool.false_and]; rfl

theorem State.forSlots_release_slot (s : State) (set : Byte) (k : SlotId) :
    (s.forSlots set (fun k v => v.release k)).slot k =
      if set.getLsbD k.val then (s.slot k).released else s.slot k :=
  State.forSlots_slot (F := fun _ => Slot.released) (fun _ u _ hj => u.release_slot_other hj) (fun k u => u.release_slot k)
    s set k

/-- The postings of a release in increasing number of slot are those of the slots that present a record. -/
theorem State.forSlots_release_link (s : State) (set : Byte) :
    (s.forSlots set (fun k v => v.release k)).link =
      (allEight.foldl (fun v k => if (set.getLsbD k.val && (s.slot k).presents) = true then v.post (.result k) else v)
        s).link := by
  have go : ∀ (l : List SlotId) (u v : State), l.Nodup → u.link = v.link → (∀ k ∈ l, u.slot k = s.slot k) →
      (l.foldl (fun u k => if set.getLsbD k.val then u.release k else u) u).link =
        (l.foldl (fun v k => if (set.getLsbD k.val && (s.slot k).presents) = true then v.post (.result k) else v)
          v).link := by
    intro l
    induction l with
    | nil => exact fun _ _ _ h _ => h
    | cons j l ih =>
      intro u v hn hl hs
      obtain ⟨hj, hn⟩ := List.nodup_cons.mp hn
      rw [List.foldl_cons, List.foldl_cons]
      refine ih _ _ hn ?_ (fun k hk => ?_)
      · cases set.getLsbD j.val with
        | false => simpa using hl
        | true =>
          rw [if_pos rfl, State.release_link, hs j List.mem_cons_self, Bool.true_and]
          split
          · exact State.post_link_congr hl _
          · exact hl
      · have hkj : k ≠ j := fun e => hj (e ▸ hk)
        rw [← hs k (List.mem_cons_of_mem _ hk)]
        split
        · exact u.release_slot_other hkj
        · rfl
  exact go allEight s s (by decide) rfl fun _ _ => rfl

/-- Postings of RESULT for the slots that `p` chooses leave in the queue what was there, and a notice for each that the mask
admits. -/
theorem State.foldl_post_has (p : SlotId → Bool) : ∀ (l : List SlotId) (s : State) (key : NoticeKey),
    ((∃ e ∈ s.link.noticeQueue, e.key = key)
      ∨ ∃ k ∈ l, p k = true ∧ key = .result k ∧ s.link.mask.admits key = true) →
    ∃ e ∈ (l.foldl (fun v k => if p k = true then v.post (.result k) else v) s).link.noticeQueue, e.key = key
  | [], s, key, h => h.resolve_right (by simp)
  | k :: l, s, key, h => by
    rw [List.foldl_cons]
    have hkeep : (∃ e ∈ s.link.noticeQueue, e.key = key) →
        ∃ e ∈ (if p k = true then s.post (.result k) else s).link.noticeQueue, e.key = key := by
      intro hq
      split
      · exact (EngineOnly.post s _).notices key hq
      · exact hq
    have hmask : (if p k = true then s.post (.result k) else s).link.mask = s.link.mask := by
      split
      · exact State.post_mask s _
      · rfl
    refine State.foldl_post_has p l _ key ?_
    rcases h with hq | ⟨j, hj, hp, rfl, ha⟩
    · exact .inl (hkeep hq)
    · rcases List.mem_cons.mp hj with rfl | hj
      · rw [if_pos hp]
        exact .inl (State.post_has ha)
      · exact .inr ⟨j, hj, hp, rfl, hmask.symm ▸ ha⟩

/-- Where no notice of theirs is queued, the postings join the queue one behind the other. -/
theorem State.foldl_post_queue (p : SlotId → Bool) : ∀ (l : List SlotId) (s : State), l.Nodup →
    (∀ e ∈ s.link.noticeQueue, ∀ k ∈ l, p k = true → e.key ≠ .result k) →
    (l.foldl (fun v k => if p k = true then v.post (.result k) else v) s).link.noticeQueue =
      s.link.noticeQueue ++ (l.filter (fun k => p k && s.link.mask.admits (.result k))).map
        (fun k => { key := .result k, postings := 1 })
  | [], s, _, _ => by simp
  | k :: l, s, hn, hq => by
    obtain ⟨hk, hn⟩ := List.nodup_cons.mp hn
    have hrest : ∀ e ∈ s.link.noticeQueue, ∀ j ∈ l, p j = true → e.key ≠ .result j := fun e he j hj =>
      hq e he j (List.mem_cons_of_mem _ hj)
    rw [List.foldl_cons, List.filter_cons]
    cases hp : p k with
    | false => simpa using State.foldl_post_queue p l s hn hrest
    | true =>
      rw [if_pos rfl, Bool.true_and]
      cases ha : s.link.mask.admits (.result k) with
      | false =>
        rw [State.post_masked ha, if_neg Bool.false_ne_true]
        exact State.foldl_post_queue p l s hn hrest
      | true =>
        rw [State.post_admitted ha, if_pos rfl, State.foldl_post_queue p l _ hn ?_]
        · dsimp only
          rw [postInto_new fun e he => hq e he k List.mem_cons_self hp]
          simp
        · dsimp only
          rw [postInto_new fun e he => hq e he k List.mem_cons_self hp]
          intro e he j hj hpj
          rcases List.mem_append.mp he with he | he
          · exact hrest e he j hj hpj
          · rw [List.mem_singleton.mp he]
            intro hkj
            cases hkj
            exact hk hj

/-- Settles O39: each slot by its own release, the notices by the postings of the slots that present a record. -/
theorem slotReleasePresentsPendingRecords : Obligations.SlotReleasePresentsPendingRecords := by
  unfold Obligations.SlotReleasePresentsPendingRecords
  intro s set high hex t presented
  refine ⟨fun h => exec_body (i := .slotRelease [set, high]) rfl rfl rfl hex (slotReleaseBody_range _ set h), ?_⟩
  rintro rfl
  have hslot : ∀ k, t.slot k = s.slot k := State.taken_slot s _
  have hpres : ∀ k, (set.getLsbD k.val && (t.slot k).presents) = presented k := fun k => by
    rw [hslot, Slot.presents, ← Bool.and_assoc]
  have hset : t.presentedSet set = slotSet presented := by
    unfold State.presentedSet
    congr 1
    funext k
    rw [hslot]
  have hlink := t.forSlots_release_link set
  simp only [hpres] at hlink
  have hexec := exec_body (i := .slotRelease [set, 0]) rfl rfl rfl hex (u := t.forSlots set (fun k v => v.release k))
    (a := Answer.ack (slotSetBytes (t.presentedSet set)
      ++ slotSetBytes (t.forSlots set (fun k v => v.release k)).heldSet)) rfl
  rw [hset] at hexec
  have heng := EngineOnly.forSlots (f := fun k v => v.release k) (fun k u => .release u k) t set
  have hdescs : (t.forSlots set (fun k v => v.release k)).descs = t.descs :=
    State.forEight_keeps (P := fun u => u.descs = t.descs) (fun k u hu => by
      split
      · exact (u.release_descs k).trans hu
      · exact hu) rfl
  refine ⟨t.forSlots set (fun k v => v.release k), hexec, ?_, fun k => ?_, fun k hk hr hs => ?_, hlink, fun hq => ?_⟩
  · have h := heng.eq
    rw [hdescs] at h
    exact h
  · rw [State.forSlots_release_slot, hslot, Slot.released]
    cases set.getLsbD k.val with
    | false => simp
    | true =>
      cases (s.slot k).held with
      | false => simp
      | true => cases hw : (s.slot k).waiting <;> simp [hw]
  · rw [hlink]
    refine State.foldl_post_has presented allEight t (.result k) (.inr ⟨k, mem_allEight k, hk, rfl, ?_⟩)
    show (t.link.mask.result && t.link.mask.slots.getLsbD k.val) = true
    rw [State.taken_mask, hr, hs]
    rfl
  · rw [hlink]
    have h := State.foldl_post_queue presented allEight t (by decide) (fun e he k _ hp => by
      rw [State.taken_noticeQueue] at he
      exact hq e he k hp)
    rw [State.taken_noticeQueue] at h
    rw [h]
    simp only [Mask.admits, t, State.taken_mask, Bool.and_assoc]
    rfl

end Sys2Proof.Machine
end

section
/-!
The stream unit: what the FIFO and the drop counts stand for (R141, R143, R149) and its two commands (R139, R148).
-/

namespace Sys2Proof.Machine

/-! ## Stamps offered (R141, R149) -/

section
variable {u : StreamUnit} {st : Stamp}

theorem StreamUnit.offer_taken (hd : u.drops[st.chan] = 0) (hf : 1 ≤ u.free) :
    u.offer st = { u with fifo := u.fifo ++ [st.entry] } := by simp [StreamUnit.offer, hd, hf]

theorem StreamUnit.offer_firstDrop (hd : u.drops[st.chan] = 0) (hf : u.free = 0) :
    u.offer st = { u with drops := u.drops.set st.chan.val 1 st.chan.isLt } := by simp [StreamUnit.offer, hd, hf]

theorem StreamUnit.offer_gap (hd : u.drops[st.chan] ≠ 0) (hf : 2 ≤ u.free) :
    u.offer st = { u with fifo := u.fifo ++ [.gap st.chan u.drops[st.chan], st.entry]
                          drops := u.drops.set st.chan.val 0 st.chan.isLt } := by
  unfold StreamUnit.offer
  dsimp only
  rw [if_neg hd, if_pos hf]

theorem StreamUnit.offer_drop (hd : u.drops[st.chan] ≠ 0) (hf : u.free ≤ 1) :
    u.offer st = { u with
      drops := u.drops.set st.chan.val (satInc Config.sat32 u.drops[st.chan]) st.chan.isLt } := by
  unfold StreamUnit.offer
  dsimp only
  rw [if_neg hd, if_neg (by omega)]

/-- The four cases of R141. -/
theorem StreamUnit.offer_cases (u : StreamUnit) (st : Stamp) :
    (u.drops[st.chan] = 0 ∧ u.offer st = { u with fifo := u.fifo ++ [st.entry] })
    ∨ (u.drops[st.chan] = 0 ∧ u.offer st = { u with drops := u.drops.set st.chan.val 1 st.chan.isLt })
    ∨ (u.drops[st.chan] ≠ 0 ∧ u.offer st = { u with
        fifo := u.fifo ++ [.gap st.chan u.drops[st.chan], st.entry], drops := u.drops.set st.chan.val 0 st.chan.isLt })
    ∨ (u.drops[st.chan] ≠ 0 ∧ u.offer st = { u with
        drops := u.drops.set st.chan.val (satInc Config.sat32 u.drops[st.chan]) st.chan.isLt }) := by
  by_cases hd : u.drops[st.chan] = 0
  · by_cases hf : 1 ≤ u.free
    · exact .inl ⟨hd, StreamUnit.offer_taken hd hf⟩
    · exact .inr (.inl ⟨hd, StreamUnit.offer_firstDrop hd (by omega)⟩)
  · by_cases hf : 2 ≤ u.free
    · exact .inr (.inr (.inl ⟨hd, StreamUnit.offer_gap hd hf⟩))
    · exact .inr (.inr (.inr ⟨hd, StreamUnit.offer_drop hd (by omega)⟩))

end

theorem drops_set_self (drops : Vector Nat 4) (c : Chan) (n : Nat) : (drops.set c.val n c.isLt)[c] = n := by simp

theorem drops_set_other (drops : Vector Nat 4) {c d : Chan} (h : d ≠ c) (n : Nat) :
    (drops.set c.val n c.isLt)[d] = drops[d] := by
  simp only [Fin.getElem_fin, Vector.getElem_set]
  rw [if_neg fun e => h (Fin.ext e.symm)]

@[simp] theorem stampsIn_append (c : Chan) (l m : List Entry) : stampsIn c (l ++ m) = stampsIn c l + stampsIn c m := by
  simp [stampsIn]

theorem stampsIn_stamp (c : Chan) (st : Stamp) : stampsIn c [st.entry] = if c = st.chan then 1 else 0 := by
  simp [stampsIn, Entry.stampsOf, Stamp.entry, eq_comm]

theorem stampsIn_gap (c d : Chan) (k : Nat) (st : Stamp) :
    stampsIn c [.gap d k, st.entry] = (if c = d then k else 0) + if c = st.chan then 1 else 0 := by
  simp [stampsIn, Entry.stampsOf, Stamp.entry, eq_comm]

/-- An offered stamp adds one to what stands for its channel, and nothing to another (R149). -/
theorem StreamUnit.offer_accounts {u : StreamUnit} {st : Stamp} (c : Chan) (h : u.drops[st.chan] < 4294967295) :
    stampsIn c (u.offer st).fifo + (u.offer st).drops[c] =
      stampsIn c u.fifo + u.drops[c] + if c = st.chan then 1 else 0 := by
  by_cases hc : c = st.chan
  · subst hc
    rw [if_pos rfl]
    rcases u.offer_cases st with ⟨-, e⟩ | ⟨hd, e⟩ | ⟨-, e⟩ | ⟨-, e⟩ <;> rw [e]
    · simp only [stampsIn_append, stampsIn_stamp, ↓reduceIte]
      omega
    · simp only [drops_set_self]
      omega
    · simp only [stampsIn_append, stampsIn_gap, drops_set_self, ↓reduceIte]
      omega
    · have hinc : satInc Config.sat32 u.drops[st.chan] = u.drops[st.chan] + 1 := if_pos h
      simp only [drops_set_self, hinc]
      omega
  · rw [if_neg hc]
    rcases u.offer_cases st with ⟨-, e⟩ | ⟨-, e⟩ | ⟨-, e⟩ | ⟨-, e⟩ <;> rw [e]
    · simp only [stampsIn_append, stampsIn_stamp, if_neg hc]
      omega
    · simp only [drops_set_other _ hc]
      omega
    · simp only [stampsIn_append, stampsIn_gap, drops_set_other _ hc, if_neg hc]
      omega
    · simp only [drops_set_other _ hc]
      omega

/-- Settles O40: the drop rule case by case, the accounting by what the entries stand for. -/
theorem streamTakesAndAccountsForStamps : Obligations.StreamTakesAndAccountsForStamps := by
  unfold Obligations.StreamTakesAndAccountsForStamps
  refine ⟨?_, fun u st c => StreamUnit.offer_accounts c, fun s c => ⟨?_, rfl⟩⟩
  · intro u st hlen free entry
    have hfree : u.free = free := rfl
    refine ⟨fun hd hf => StreamUnit.offer_taken hd hf, fun hd hf => ?_, fun hd hf => ?_, fun hd hf => ?_, fun c hc => ?_, ?_⟩
    · rw [StreamUnit.offer_firstDrop hd (hfree.trans hf)]
      exact ⟨rfl, drops_set_self ..⟩
    · rw [StreamUnit.offer_gap hd.ne' (hfree ▸ hf)]
      exact ⟨rfl, drops_set_self ..⟩
    · rw [StreamUnit.offer_drop hd.ne' (hfree ▸ hf)]
      exact ⟨rfl, drops_set_self ..⟩
    · rcases u.offer_cases st with ⟨-, e⟩ | ⟨-, e⟩ | ⟨-, e⟩ | ⟨-, e⟩ <;> rw [e]
      · exact drops_set_other _ hc _
      · exact drops_set_other _ hc _
      · exact drops_set_other _ hc _
    · rcases u.offer_cases st with ⟨-, e⟩ | ⟨-, e⟩ | ⟨-, e⟩ | ⟨-, e⟩ <;> rw [e]
  · show stampsIn c (s.stream.fifo.take 32) + stampsIn c (s.stream.fifo.drop 32) = _
    rw [← stampsIn_append, List.take_append_drop]

/-! ## STREAM SET and STREAM CLEAR (R139, R148) -/

theorem streamSetBody_range {set : Byte} (h : 16 ≤ set.toNat) (s : State) :
    streamSetBody [set] s = (s, Answer.refuse .range) := if_pos h

/-- The enables after STREAM SET spell its set. -/
theorem chanSetByte_bits {set : Byte} (h : set.toNat < 16) : chanSetByte (fun c => set.getLsbD c.val) = set := by
  revert set
  decide

theorem StreamUnit.dropBytes_eq (u : StreamUnit) :
    u.dropBytes = leBytes 4 u.drops[0] ++ (leBytes 4 u.drops[1] ++ (leBytes 4 u.drops[2] ++ leBytes 4 u.drops[3])) := by
  have hl : u.drops.toList = [u.drops[0], u.drops[1], u.drops[2], u.drops[3]] := by
    apply List.ext_getElem
    · simp
    · intro i hi _
      simp only [Vector.length_toList] at hi
      interval_cases i <;> simp
  rw [StreamUnit.dropBytes, hl]
  simp

theorem streamSetBody_ok {set : Byte} (h : set.toNat < 16) (s : State) :
    streamSetBody [set] s =
      (s.mapChans (fun c ch => { ch with streamEnable := set.getLsbD c.val }),
        Answer.ack ([set] ++ leBytes 2 s.stream.fifo.length ++ leBytes 4 s.stream.drops[0] ++ leBytes 4 s.stream.drops[1]
          ++ leBytes 4 s.stream.drops[2] ++ leBytes 4 s.stream.drops[3])) := by
  have hbody : streamSetBody [set] s =
      (s.mapChans (fun c ch => { ch with streamEnable := set.getLsbD c.val }),
        Answer.ack (s.mapChans (fun c ch => { ch with streamEnable := set.getLsbD c.val })).streamData) :=
    if_neg (Nat.not_le.mpr h)
  have hstream : (s.mapChans (fun c ch => { ch with streamEnable := set.getLsbD c.val })).stream = s.stream := by
    rw [State.mapChans_eq]
  have henables : chanSetByte (fun c =>
      ((s.mapChans (fun c ch => { ch with streamEnable := set.getLsbD c.val })).chan c).streamEnable) = set := by
    simp only [State.mapChans_chan]
    exact chanSetByte_bits h
  rw [hbody, State.streamData, hstream, henables, StreamUnit.dropBytes_eq]
  simp [List.append_assoc]

/-- Settles O41: the two blocks, on the state without their command. -/
theorem streamCommandsSetAndClear : Obligations.StreamCommandsSetAndClear := by
  unfold Obligations.StreamCommandsSetAndClear
  refine ⟨fun s set hex => ⟨fun h => exec_body (i := .streamSet [set]) rfl rfl rfl hex (streamSetBody_range h _),
    fun h => ?_⟩, fun s hex => ?_⟩
  · have he := exec_body (i := .streamSet [set]) rfl rfl rfl hex (streamSetBody_ok h _)
    rw [State.taken_stream] at he
    refine ⟨_, he, State.mapChans_eq _ _, fun c => ?_⟩
    rw [State.mapChans_chan, State.taken_chan]
  · refine ⟨(s.taken [0x61]).modStream (fun u => { u with fifo := [], drops := Vector.replicate 4 0 }), ?_, rfl, rfl,
      fun c => ?_, ?_⟩
    · have he := exec_body (i := .streamClear []) rfl rfl rfl hex (u := (s.taken [0x61]).modStream
        (fun u => { u with fifo := [], drops := Vector.replicate 4 0 })) rfl
      rw [State.taken_stream] at he
      refine he.trans ?_
      simp [allChans, StreamUnit.discarded, Config.sat32, List.append_assoc]
    · simp
    · simp

end Sys2Proof.Machine
end

section
/-!
Commands whose whole effect is on one block: TB CONFIG and TB START (R2, R8), CALIBRATE (R60, R61).
-/

namespace Sys2Proof.Machine

/-! ## TB CONFIG (R2) -/

section
variable (b : Byte)

theorem readSource_eq_none_iff : readSource b = none ↔ b ≠ 1 ∧ b ≠ 2 := by revert b; decide
theorem readRefFreq_eq_none_iff : readRefFreq b = none ↔ b ≠ 1 ∧ b ≠ 2 := by revert b; decide
theorem readLossAction_eq_none_iff : readLossAction b = none ↔ b ≠ 1 ∧ b ≠ 2 := by revert b; decide
theorem readFlag_eq_none_iff : readFlag b = none ↔ b ≠ 0 ∧ b ≠ 1 := by revert b; decide

end

section
variable {s : State} {a0 a1 a2 a3 a4 : Byte}

theorem tbConfigBody_busy (h : s.tb.state ≠ .halt) (args : List Byte) :
    tbConfigBody args s = (s, Answer.refuse .busy) := if_pos h

/-- The field that TB CONFIG refuses is the first whose byte spells no value. -/
theorem tbConfigBody_invalid (h : s.tb.state = .halt) :
    if a0 ≠ 1 ∧ a0 ≠ 2 then tbConfigBody [a0, a1, a2, a3, a4] s = (s, Answer.invalid 1)
    else if a1 ≠ 1 ∧ a1 ≠ 2 then tbConfigBody [a0, a1, a2, a3, a4] s = (s, Answer.invalid 2)
    else if a2 ≠ 0 ∧ a2 ≠ 1 then tbConfigBody [a0, a1, a2, a3, a4] s = (s, Answer.invalid 3)
    else if a3 ≠ 1 ∧ a3 ≠ 2 then tbConfigBody [a0, a1, a2, a3, a4] s = (s, Answer.invalid 4)
    else if a4 ≠ 0 ∧ a4 ≠ 1 then tbConfigBody [a0, a1, a2, a3, a4] s = (s, Answer.invalid 5)
    else True := by
  have hbody : tbConfigBody [a0, a1, a2, a3, a4] s =
      match readSource a0, readRefFreq a1, readFlag a2, readLossAction a3, readFlag a4 with
      | none, _, _, _, _ => (s, Answer.invalid 1)
      | some _, none, _, _, _ => (s, Answer.invalid 2)
      | some _, some _, none, _, _ => (s, Answer.invalid 3)
      | some _, some _, some _, none, _ => (s, Answer.invalid 4)
      | some _, some _, some _, some _, none => (s, Answer.invalid 5)
      | some sel, some freq, some detect, some action, some revert =>
        (s.modTb (fun tb => tb.configure sel freq detect action revert)).ackSnapshot := by
    unfold tbConfigBody
    rw [if_neg (not_not.mpr h)]
    rfl
  simp only [← readSource_eq_none_iff a0, ← readRefFreq_eq_none_iff a1, ← readFlag_eq_none_iff a2,
    ← readLossAction_eq_none_iff a3, ← readFlag_eq_none_iff a4]
  split_ifs with h0 h1 h2 h3 h4
  · rw [hbody, h0]
  · obtain ⟨v0, h0⟩ := Option.ne_none_iff_exists'.mp h0
    rw [hbody, h0, h1]
  · obtain ⟨v0, h0⟩ := Option.ne_none_iff_exists'.mp h0
    obtain ⟨v1, h1⟩ := Option.ne_none_iff_exists'.mp h1
    rw [hbody, h0, h1, h2]
  · obtain ⟨v0, h0⟩ := Option.ne_none_iff_exists'.mp h0
    obtain ⟨v1, h1⟩ := Option.ne_none_iff_exists'.mp h1
    obtain ⟨v2, h2⟩ := Option.ne_none_iff_exists'.mp h2
    rw [hbody, h0, h1, h2, h3]
  · obtain ⟨v0, h0⟩ := Option.ne_none_iff_exists'.mp h0
    obtain ⟨v1, h1⟩ := Option.ne_none_iff_exists'.mp h1
    obtain ⟨v2, h2⟩ := Option.ne_none_iff_exists'.mp h2
    obtain ⟨v3, h3⟩ := Option.ne_none_iff_exists'.mp h3
    rw [hbody, h0, h1, h2, h3, h4]

theorem tbConfigBody_ok (h : s.tb.state = .halt) {sel : Source} (hsel : sel ≠ .none) (freq : RefFreq) (detect : Bool)
    (action : LossAction) (revert : Bool) :
    tbConfigBody [sel.code, freq.code, flagByte detect, action.code, flagByte revert] s =
      (s.modTb (fun tb => tb.configure sel freq detect action revert)).ackSnapshot := by
  unfold tbConfigBody
  rw [if_neg (not_not.mpr h)]
  simp only [arg, List.getD_cons_zero, List.getD_cons_succ, readSource_code hsel, readRefFreq_code, readFlag_flagByte,
    readLossAction_code]

end

/-- Settles O8: BUSY, the first bad field, or the five fields stored together. -/
theorem tbConfigStoresOrNamesTheField : Obligations.TbConfigStoresOrNamesTheField := by
  unfold Obligations.TbConfigStoresOrNamesTheField
  refine ⟨fun s a0 a1 a2 a3 a4 hex => ⟨fun h => ?_, fun h => ?_⟩, fun s sel freq detect action revert hsel h hex => ?_⟩
  · exact exec_body (i := .tbConfig _) rfl rfl rfl hex (tbConfigBody_busy (by rw [State.taken_tb]; exact h) _)
  · have answers {a : Answer} (hb : tbConfigBody [a0, a1, a2, a3, a4] (s.taken [0x10, a0, a1, a2, a3, a4]) =
        (s.taken [0x10, a0, a1, a2, a3, a4], a)) :=
      exec_body (i := .tbConfig [a0, a1, a2, a3, a4]) rfl rfl rfl hex hb
    have hbody := tbConfigBody_invalid (s := s.taken [0x10, a0, a1, a2, a3, a4]) (a0 := a0) (a1 := a1) (a2 := a2)
      (a3 := a3) (a4 := a4) (by rw [State.taken_tb]; exact h)
    split_ifs at hbody ⊢
    · exact answers hbody
    · exact answers hbody
    · exact answers hbody
    · exact answers hbody
    · exact answers hbody
  · have he := exec_body (i := .tbConfig _) rfl rfl rfl hex
      (tbConfigBody_ok (by rw [State.taken_tb]; exact h) hsel freq detect action revert)
    unfold State.modTb at he
    rw [State.taken_tb] at he
    exact he

/-! ## TB START (R8) -/

theorem State.startTb_chan (s : State) (c : Chan) :
    s.startTb.chan c = { s.chan c with n := 0, holdoffEnd := none, deadEnd := none } := by
  unfold State.startTb
  dsimp only
  rw [State.forChans_modChan_chan]
  rfl

theorem State.startTb_eq (s : State) :
    s.startTb = { s with tb := s.startTb.tb, chans := s.startTb.chans, link := (s.post .timebase).link } := by
  have h := (State.postTimebase (s.modTb (fun tb =>
    { tb with state := .acquire, inForce := tb.selected, holdover := false, coarse := 0, ticked := false,
              phaseTimer := some Config.acquireCycles })) .start).mapChans_eq
    (fun _ ch => { ch with n := 0, holdoffEnd := none, deadEnd := none })
  exact h

/-- Settles O9: the two refusals, and the start on the state without the command. -/
theorem tbStartEntersAcquire : Obligations.TbStartEntersAcquire := by
  unfold Obligations.TbStartEntersAcquire
  intro s hex t
  have htb : t.tb = s.tb := State.taken_tb s _
  refine ⟨fun h => ?_, fun h hsel hmon => ?_, fun h hok => ?_⟩
  · exact exec_body (i := .tbStart []) rfl rfl rfl hex (if_pos (by rw [State.taken_tb]; exact h))
  · refine exec_body (i := .tbStart []) rfl rfl rfl hex ?_
    unfold tbStartBody
    rw [State.taken_tb, if_neg (not_not.mpr h), if_pos ⟨hsel, hmon⟩]
  · have hb : tbStartBody t = (t.startTb, Answer.ack t.startTb.tb.snapshot) := by
      unfold tbStartBody
      rw [htb, if_neg (not_not.mpr h), if_neg fun hn => hn.2 (hok hn.1)]
      rfl
    refine ⟨t.startTb, exec_body (i := .tbStart []) rfl rfl rfl hex hb, ?_, fun c => ?_, t.startTb_eq⟩
    · rw [State.startTb_tb, htb]
      rfl
    · rw [State.startTb_chan, State.taken_chan]

/-! ## CALIBRATE (R60, R61) -/

theorem readChan_none {b : Byte} (h : ¬(1 ≤ b.toNat ∧ b.toNat ≤ 4)) : readChan b = none := by
  rcases readChan_cases b with ⟨c, -, rfl⟩ | ⟨hn, -⟩
  · exact absurd (by revert c; decide) h
  · exact hn

theorem State.inUse_iff (s : State) (c : Chan) :
    s.inUse c = true ↔ ∃ g : Desc, (s.desc g).running = true ∧ c ∈ (s.desc g).active.used := by
  unfold State.inUse
  simp [mem_allEight]

theorem State.taken_chanState (s : State) (p : List Byte) (c : Chan) : (s.taken p).chanState c = s.chanState c :=
  State.chanState_congr (State.taken_aux s p) (State.taken_cal s p) (by rw [State.taken_chan])

theorem State.taken_inUse (s : State) (p : List Byte) (c : Chan) : (s.taken p).inUse c = s.inUse c := by
  unfold State.inUse
  simp only [State.taken_desc]

section
variable {s : State} {c : Chan}

theorem calibrateBody_noTimebase (h : s.tb.state ≠ .run) :
    calibrateBody [chanByte c] s = (s, Answer.refuse .noTimebase) := by
  simp [calibrateBody, arg, h]

theorem calibrateBody_busy (h : s.tb.state = .run)
    (hb : s.cal.isSome = true ∨ s.chanState c = .parked ∨ s.inUse c = true) :
    calibrateBody [chanByte c] s = (s, Answer.refuse .busy) := by
  unfold calibrateBody
  simp only [arg, List.getD_cons_zero, readChan_chanByte]
  rw [if_neg (not_not.mpr h), if_pos hb]

theorem calibrateBody_ok (h : s.tb.state = .run)
    (hb : ¬(s.cal.isSome = true ∨ s.chanState c = .parked ∨ s.inUse c = true)) :
    calibrateBody [chanByte c] s =
      (s.startCal c, Answer.ack (chanByte c :: leBytes 2 ((s.chan c).attempt.number + 1).toNat
        ++ leBytes 8 (s.tb.coarse + Config.calDeadlineCycles).toNat)) := by
  unfold calibrateBody
  simp only [arg, List.getD_cons_zero, readChan_chanByte]
  rw [if_neg (not_not.mpr h), if_neg hb]

end

theorem State.startCal_chan (s : State) (c d : Chan) :
    (s.startCal c).chan d = if d = c then (s.chan c).startAttempt else s.chan d := s.chan_modChan c d _

/-- Settles O20: the three checks in their order, and the attempt begun. -/
theorem calibrateChecksAndBegins : Obligations.CalibrateChecksAndBegins := by
  unfold Obligations.CalibrateChecksAndBegins
  refine ⟨fun s b hex hb => ?_, ?_⟩
  · refine exec_body (i := .calibrate [b]) rfl rfl rfl hex ?_
    simp [calibrateBody, arg, readChan_none hb]
  · intro s c hex t busy
    have htb : t.tb = s.tb := State.taken_tb s _
    have hbusy : (t.cal.isSome = true ∨ t.chanState c = .parked ∨ t.inUse c = true) ↔ busy := by
      rw [State.taken_cal, State.taken_chanState, State.taken_inUse, State.inUse_iff, Option.isSome_iff_ne_none]
    refine ⟨fun h => exec_body (i := .calibrate [chanByte c]) rfl rfl rfl hex (calibrateBody_noTimebase (htb ▸ h)),
      fun h hb => exec_body (i := .calibrate [chanByte c]) rfl rfl rfl hex
        (calibrateBody_busy (htb ▸ h) (hbusy.mpr hb)), fun h hb => ?_⟩
    have he := exec_body (i := .calibrate [chanByte c]) rfl rfl rfl hex
      (calibrateBody_ok (htb ▸ h) (fun hn => hb (hbusy.mp hn)))
    rw [State.taken_tb, State.taken_chan] at he
    refine ⟨t.startCal c, he, ?_, fun d hd => ?_, ?_, fun b => ?_, ?_⟩
    · rw [← htb]
      rfl
    · rw [State.startCal_chan, if_neg hd, State.taken_chan]
    · rw [State.startCal_chan, if_pos rfl, State.taken_chan]
      rfl
    · rw [State.startCal_chan, if_pos rfl]
      exact emptyHistogram_get b
    · have hset : ((t.startCal c).chan c).set = (t.chan c).set := by rw [State.startCal_chan, if_pos rfl]; rfl
      have hpark : parks t.aux.role (t.chan c).set.binding = false := by
        by_contra hp
        refine hb (hbusy.mp (.inr (.inl ?_)))
        simp [State.chanState, hp]
      have haux : (t.startCal c).aux = t.aux := rfl
      have hcal : (t.startCal c).calibrates c = true := by simp [State.calibrates, State.startCal]
      unfold State.chanState
      rw [haux, hset, hpark, hcal]
      rfl

end Sys2Proof.Machine
end

section
/-!
What arming makes of a descriptor (R84, R85, R88), and the gate commands that act on one descriptor: GATE COMMIT (R79, R80),
GATE ENABLE (R83) and GATE STOP (R98, R99).
-/

namespace Sys2Proof.Machine

/-! ## One descriptor changes -/

/-- From `s` to `u` descriptor `g` alone may differ. -/
def OneDesc (g : Desc) (s u : State) : Prop := u = { s with descs := u.descs } ∧ DescOnly g s u

section
variable {s t u : State} {g : Desc}

theorem OneDesc.refl (g : Desc) (s : State) : OneDesc g s s := ⟨rfl, fun _ _ => rfl⟩

theorem OneDesc.trans (h : OneDesc g s t) (k : OneDesc g t u) : OneDesc g s u :=
  ⟨k.1.trans (by rw [h.1]), h.2.trans k.2⟩

theorem OneDesc.modDesc (s : State) (g : Desc) (f : Descriptor → Descriptor) : OneDesc g s (s.modDesc g f) :=
  ⟨rfl, .modDesc s g f⟩

theorem OneDesc.engine (h : OneDesc g s u) : EngineOnly s u := by
  rw [h.1]
  constructor
  case notices => exact fun _ hk => hk
  all_goals rfl

theorem OneDesc.arm (s : State) (g : Desc) (m : Sample) : OneDesc g s (s.arm g m) := by
  unfold State.arm
  split
  · exact .modDesc s g _
  · exact .modDesc s g _

theorem OneDesc.judge (s : State) (g : Desc) : OneDesc g s (s.judge g) := by
  unfold State.judge
  split
  · exact .arm s g _
  · exact .refl g s

/-! ## Instants in the units of the claims -/

theorem startTimeout_eq (cp : GateCopy) (x : Coarse) : cp.startTimeout x = cp.timeoutFrom x := rfl

theorem GateMode.kind_eq_one_iff {m : GateMode} : m.kind = 1 ↔ ∃ len, m = .time len := by
  cases m <;> simp [GateMode.kind]

/-- A C_end of 400 cycles a µs lies ahead of the count at which its gate opens, and of the next one too. -/
theorem not_atOrAfter_gateEnd {x y : Coarse} {len : Nat} (h1 : 1 ≤ len) (h2 : len ≤ 100000000) (hx : (x - y).toNat ≤ 1) :
    atOrAfter x (y + gateCycles len) = false := by
  unfold atOrAfter gateCycles
  have hn : (BitVec.ofNat 54 (400 * len)).toNat = 400 * len := by
    rw [BitVec.toNat_ofNat]
    exact Nat.mod_eq_of_lt (by omega)
  generalize BitVec.ofNat 54 (400 * len) = n at hn ⊢
  have e : (x - (y + n)).toNat = ((x - y).toNat + (2 ^ 54 - n.toNat)) % 2 ^ 54 := by
    rw [show x - (y + n) = (x - y) - n by abel, BitVec.toNat_sub]
    congr 1
    omega
  rw [Nat.mod_eq_of_lt (by omega)] at e
  simp only [decide_eq_false_iff_not, e]
  omega

/-! ## Arming (R85, R88) -/

theorem gateFlags_eq (tb : Timebase) :
    tb.gateFlags = { uncal := false, holdover := tb.holdover, unsettled := decide (tb.state = .relock) } := rfl

/-- A TOTALIZE TIME gate opened with a sample of the present count, or of the one before it. -/
theorem State.openGate_totalizeTime {len : Nat} (hfn : (s.desc g).active.fn = .totalize)
    (hm : (s.desc g).active.mode = .time len) (h1 : 1 ≤ len) (h2 : len ≤ 100000000) (m : Sample)
    (hx : (s.tb.coarse - m.instant).toNat ≤ 1) :
    (s.openGate g none m).desc g = s.openedAt (s.desc g) m len := by
  unfold State.openGate
  rw [State.desc_modDesc_self]
  simp only [hfn, hm, Option.filter, not_atOrAfter_gateEnd h1 h2 hx]
  rfl

theorem State.sampleAt_counts (s : State) (x : Coarse) (c : Chan) : (s.sampleAt x).counts[c] = (s.chan c).n := by
  fin_cases c <;> rfl

/-- Arming with the counts of the present count. -/
theorem State.arm_armsInto (s : State) (g : Desc) : s.armsInto (s.desc g) s.tb.coarse ((s.arm g s.sampleNow).desc g) := by
  refine ⟨fun h => ?_, fun len hfn hm => ⟨?_, fun h1 h2 => ⟨s.sampleNow, rfl, fun c => ?_, ?_⟩⟩⟩
  · have : s.arm g s.sampleNow = s.enterArmed g := by
      unfold State.arm
      split
      next len hfn hm => exact absurd ⟨hfn, GateMode.kind_eq_one_iff.mpr ⟨_, hm⟩⟩ h
      next => rfl
    rw [this]
    exact State.desc_modDesc_self ..
  · have : s.arm g s.sampleNow = s.openGate g none s.sampleNow := by
      unfold State.arm
      rw [hfn, hm]
    rw [this]
    unfold State.openGate
    rw [State.desc_modDesc_self]
    simp [hfn, Fn.edgeSynced]
  · exact s.sampleAt_counts _ c
  · have : s.arm g s.sampleNow = s.openGate g none s.sampleNow := by
      unfold State.arm
      rw [hfn, hm]
    rw [this]
    exact State.openGate_totalizeTime hfn hm h1 h2 _ (by simp [State.sampleNow, State.sampleAt])

/-- Arming looks at the counts, the holdover and whether the timebase relocks. -/
theorem State.armsInto_congr (htb : t.tb = s.tb) (hc : ∀ c, (t.chan c).n = (s.chan c).n) (d : Descriptor) (x : Coarse)
    (e : Descriptor) : t.armsInto d x e ↔ s.armsInto d x e := by
  unfold State.armsInto State.openedAt
  simp only [htb, hc]

theorem State.armsAtOnce_congr (htb : t.tb = s.tb) (hc : ∀ c, t.chanState c = s.chanState c) (cp : GateCopy) :
    t.armsAtOnce cp ↔ s.armsAtOnce cp := by
  unfold State.armsAtOnce
  simp only [htb, hc]

/-- A descriptor in WAIT_ARM that judges its readiness. -/
theorem State.judge_waitArm (hw : (s.desc g).state = .waitArm) :
    (s.armsAtOnce (s.desc g).active → s.armsInto (s.desc g) s.tb.coarse ((s.judge g).desc g))
    ∧ (¬s.armsAtOnce (s.desc g).active → (s.judge g).desc g = s.desc g) := by
  have hiff : s.armsAtOnce (s.desc g).active ↔ (s.desc g).state = .waitArm ∧ (s.desc g).active.arm = .immediate
      ∧ s.ready g = true := by
    rw [State.ready_iff]
    exact ⟨fun h => ⟨hw, h⟩, fun h => h.2⟩
  unfold State.judge
  constructor
  · intro h
    rw [if_pos (hiff.mp h)]
    exact s.arm_armsInto g
  · intro h
    rw [if_neg (mt hiff.mpr h)]

/-- The same on a state in which descriptor `g` has just been put there. -/
theorem State.judge_modDesc (s : State) (g : Desc) {f : Descriptor → Descriptor} (hw : (f (s.desc g)).state = .waitArm) :
    (s.armsAtOnce (f (s.desc g)).active → s.armsInto (f (s.desc g)) s.tb.coarse (((s.modDesc g f).judge g).desc g))
    ∧ (¬s.armsAtOnce (f (s.desc g)).active → ((s.modDesc g f).judge g).desc g = f (s.desc g)) := by
  have h := State.judge_waitArm (s := s.modDesc g f) (g := g) (by rw [State.desc_modDesc_self]; exact hw)
  have e := EngineOnly.modDesc s g f
  rw [State.desc_modDesc_self, State.armsAtOnce_congr e.tb e.chanState,
    State.armsInto_congr e.tb (fun c => by rw [e.chan]), e.tb] at h
  exact h

end

/-! ## GATE ENABLE (R83) -/

section
variable {s : State} {g : Desc}

theorem State.enable_one (s : State) (g : Desc) : OneDesc g s (s.enable g) :=
  (OneDesc.modDesc s g _).trans (.judge _ g)

/-- Settles O26: the two refusals, and WAIT_ARM entered and judged. -/
theorem gateEnableEntersWaitArm : Obligations.GateEnableEntersWaitArm := by
  unfold Obligations.GateEnableEntersWaitArm
  refine ⟨fun s b hex hb => exec_body (i := .gateEnable [b]) rfl rfl rfl hex ?_, ?_⟩
  · simp [gateEnableBody, arg, readEight_none hb]
  · intro s g hex t d
    have hd : t.desc g = d := State.taken_desc s _ g
    have body : gateEnableBody [eightByte g] t =
        if d.state ≠ .off then (t, Answer.refuse .busy)
        else if d.active.fn = .none then (t, Answer.invalid 2)
        else (t.enable g, Answer.ack [((t.enable g).desc g).state.code]) := by
      simp only [gateEnableBody, arg, List.getD_cons_zero, readEight_eightByte, hd]
    refine ⟨fun h => exec_body (i := .gateEnable _) rfl rfl rfl hex (by rw [body, if_pos h]),
      fun h hfn => exec_body (i := .gateEnable _) rfl rfl rfl hex (by rw [body, if_neg (not_not.mpr h), if_pos hfn]),
      fun h hfn => ?_⟩
    have hone := t.enable_one g
    have hj := t.judge_modDesc g (f := fun d => { d with state := .waitArm, gateNumber := 0, lastGate := false }) rfl
    rw [hd] at hj
    obtain ⟨harm, hstay⟩ := hj
    refine ⟨t.enable g, exec_body (i := .gateEnable _) rfl rfl rfl hex (by rw [body, if_neg (not_not.mpr h), if_neg hfn]),
      hone.1, fun k hk => (hone.2 k hk).trans (State.taken_desc s _ k), fun hn => hstay ?_, fun ha => ?_⟩
    · rwa [State.armsAtOnce_congr (State.taken_tb s _) (State.taken_chanState s _)]
    · rw [State.armsAtOnce_congr (State.taken_tb s _) (State.taken_chanState s _),
        State.armsInto_congr (State.taken_tb s _) (fun c => by rw [State.taken_chan]), State.taken_tb] at harm
      exact harm ha

end

/-! ## GATE COMMIT (R79, R80) -/

section
variable (cp : GateCopy) (g : Desc)

theorem GateCopy.secondaryAllowed_iff : cp.secondaryAllowed = true ↔ cp.check1 := by
  unfold GateCopy.secondaryAllowed GateCopy.check1
  cases hfn : cp.fn <;> simp [Option.isSome_iff_ne_none]

theorem GateCopy.modeAllowed_iff : cp.modeAllowed = true ↔ cp.check2 := by
  unfold GateCopy.modeAllowed GateCopy.check2
  cases hfn : cp.fn <;> cases hm : cp.mode <;> simp [GateMode.kind]

theorem GateCopy.armAllowed_iff : cp.armAllowed g = true ↔ cp.check3 g := by
  unfold GateCopy.armAllowed GateCopy.check3
  simp [imp_iff_not_or]

/-- The field that GATE COMMIT refuses is that of the first check that fails. -/
theorem GateCopy.commitFault_cases :
    (¬cp.check1 → cp.commitFault g = some 4)
    ∧ (cp.check1 → ¬cp.check2 → cp.commitFault g = some 5)
    ∧ (cp.check1 → cp.check2 → ¬cp.check3 g → cp.commitFault g = some 14)
    ∧ (cp.check1 → cp.check2 → cp.check3 g → cp.commitFault g = none) := by
  rw [← cp.secondaryAllowed_iff, ← cp.modeAllowed_iff, ← cp.armAllowed_iff g]
  unfold GateCopy.commitFault
  refine ⟨fun h1 => ?_, fun h1 h2 => ?_, fun h1 h2 h3 => ?_, fun h1 h2 h3 => ?_⟩ <;> simp [*]

end

section
variable {s : State} {g : Desc}

theorem Descriptor.commit_eq {d : Descriptor} (h : d.commitPending = false) : d.commit = { d with active := d.staged } := by
  cases d
  cases h
  rfl

theorem State.commitWaiting_one (s : State) (g : Desc) : OneDesc g s (s.commitWaiting g) := by
  unfold State.commitWaiting
  dsimp only
  split
  · exact (OneDesc.modDesc s g _).trans (.modDesc _ g _)
  · exact ((OneDesc.modDesc s g _).trans (.modDesc _ g _)).trans (.judge _ g)

/-- A commit in WAIT_ARM or ARMED, which has nothing pending: OFF under NONE, and else WAIT_ARM, judged under the new
copy. -/
theorem State.commitWaiting_desc (s : State) (g : Desc) (hp : (s.desc g).commitPending = false) :
    let d := s.desc g
    let u := s.commitWaiting g
    (d.staged.fn = .none → u.desc g = { d with active := d.staged, timeoutAt := none, state := .off })
    ∧ (d.staged.fn ≠ .none → ¬s.armsAtOnce d.staged →
        u.desc g = { d with active := d.staged, timeoutAt := none, state := .waitArm })
    ∧ (d.staged.fn ≠ .none → s.armsAtOnce d.staged → s.armsInto { d with active := d.staged } s.tb.coarse (u.desc g)) := by
  intro d u
  have hcommit : { d.commit with timeoutAt := none } = { d with active := d.staged, timeoutAt := none } := by
    rw [Descriptor.commit_eq hp]
  have hu : u = if d.staged.fn = .none then (s.modDesc g (fun d => { d.commit with timeoutAt := none })).modDesc g
        (fun d => { d with state := .off })
      else ((s.modDesc g (fun d => { d.commit with timeoutAt := none })).modDesc g
        (fun d => { d with state := .waitArm })).judge g := by
    show s.commitWaiting g = _
    unfold State.commitWaiting
    dsimp only
    rw [State.desc_modDesc_self]
    rfl
  have hv : (s.modDesc g (fun d => { d.commit with timeoutAt := none })).desc g =
      { d with active := d.staged, timeoutAt := none } := (State.desc_modDesc_self ..).trans hcommit
  have he := EngineOnly.modDesc s g (fun d => { d.commit with timeoutAt := none })
  generalize s.modDesc g (fun d => { d.commit with timeoutAt := none }) = v at hu hv he
  have hj := v.judge_modDesc g (f := fun d => { d with state := .waitArm }) rfl
  rw [hv, State.armsAtOnce_congr he.tb he.chanState, State.armsInto_congr he.tb (fun c => by rw [he.chan]), he.tb] at hj
  obtain ⟨harm, hstay⟩ := hj
  refine ⟨fun h => ?_, fun h hn => ?_, fun h ha => ?_⟩
  · rw [hu, if_pos h, State.desc_modDesc_self, hv]
  · rw [hu, if_neg h]
    exact hstay hn
  · rw [hu, if_neg h]
    exact harm ha

theorem State.commitNow_one (s : State) (g : Desc) : OneDesc g s (s.commitNow g) := by
  unfold State.commitNow
  split
  · exact .modDesc s g _
  · exact s.commitWaiting_one g
  · exact s.commitWaiting_one g
  · exact .modDesc s g _
  · exact .modDesc s g _

/-- Settles O25: the refusals in their order, and a commit by the state of the descriptor. -/
theorem gateCommitActsByState : Obligations.GateCommitActsByState := by
  unfold Obligations.GateCommitActsByState
  refine ⟨fun s b hex hb => exec_body (i := .gateCommit [b]) rfl rfl rfl hex ?_, ?_⟩
  · simp [gateCommitBody, arg, readEight_none hb]
  · intro s g hex t d answers
    have hd : t.desc g = d := State.taken_desc s _ g
    have body : gateCommitBody [eightByte g] t =
        if d.commitPending then (t, Answer.refuse .busy)
        else match d.staged.commitFault g with
          | some k => (t, Answer.invalid k)
          | none => (t.commitNow g, Answer.ack ([((t.commitNow g).desc g).state.code,
              flagByte ((t.commitNow g).desc g).commitPending] ++ ((t.commitNow g).desc g).active.bytes)) := by
      simp only [gateCommitBody, arg, List.getD_cons_zero, readEight_eightByte, hd] <;> rfl
    have run {u : State} {a : Answer} (hb : gateCommitBody [eightByte g] t = (u, a)) :
        exec (.gateCommit [eightByte g]) s = .next (u.reply 0x41 a).arbitrate :=
      exec_body (i := .gateCommit _) rfl rfl rfl hex hb
    obtain ⟨f1, f2, f3, f4⟩ := d.staged.commitFault_cases g
    refine ⟨fun hp => run (by rw [body, if_pos hp]), fun hp h1 => run ?_, fun hp h1 h2 => run ?_,
      fun hp h1 h2 h3 => run ?_, fun hp h1 h2 h3 => ?_⟩
    · rw [body, f1 h1, if_neg (by simp [hp])]
    · rw [body, f2 h1 h2, if_neg (by simp [hp])]
    · rw [body, f3 h1 h2 h3, if_neg (by simp [hp])]
    · have hone := t.commitNow_one g
      have hw := t.commitWaiting_desc g (by rw [hd]; exact hp)
      dsimp only at hw
      rw [hd, State.armsAtOnce_congr (State.taken_tb s _) (State.taken_chanState s _),
        State.armsInto_congr (State.taken_tb s _) (fun c => by rw [State.taken_chan]), State.taken_tb] at hw
      refine ⟨t.commitNow g, run (by rw [body, f4 h1 h2 h3, if_neg (by simp [hp])]), hone.1,
        fun k hk => (hone.2 k hk).trans (State.taken_desc s _ k), fun h => ?_, fun h => ?_, fun h => ?_⟩
      · have : t.commitNow g = t.modDesc g Descriptor.commit := by
          unfold State.commitNow
          rw [hd, h]
        rw [this, State.desc_modDesc_self, hd, Descriptor.commit_eq hp]
      · have : t.commitNow g = t.modDesc g (fun d => { d with commitPending := true }) := by
          unfold State.commitNow
          rcases h with h | h <;> rw [hd, h]
        rw [this, State.desc_modDesc_self, hd]
      · have : t.commitNow g = t.commitWaiting g := by
          unfold State.commitNow
          rcases h with h | h <;> rw [hd, h]
        rw [this]
        exact hw

end

/-! ## GATE STOP (R98, R99) -/

section
variable {s : State} {g : Desc}

/-- The tick behind the present count has not come. -/
theorem not_atOrAfter_succ (x : Coarse) : atOrAfter x (x + 1) = false := by
  unfold atOrAfter
  rw [show x - (x + 1) = -1 by abel]
  decide

/-- A close event of a TOTALIZE gate at the present count waits for the next tick. -/
theorem State.closeGate_totalizeNow {e : CloseEvent} (hfn : (s.desc g).active.fn = .totalize)
    (hx : e.sample.instant = s.tb.coarse) :
    s.closeGate g e = s.modDesc g (fun d => { d with closeEvent := some e }) := by
  unfold State.closeGate State.awaitsCount
  rw [hx, not_atOrAfter_succ, if_pos (by simp [hfn])]

theorem Fn.edgeSynced_iff (fn : Fn) : fn.edgeSynced = true ↔ fn = .freq ∨ fn = .period ∨ fn = .ratio := by
  cases fn <;> simp [Fn.edgeSynced]

theorem Fn.ne_of_edgeSynced {fn : Fn} (h : fn.edgeSynced = true) : fn ≠ .totalize ∧ fn ≠ .interval := by
  cases fn <;> simp_all [Fn.edgeSynced]

/-- STOP FINISH in OPEN, by function and gate mode. -/
theorem State.finishOpen_cases (s : State) (g : Desc) :
    let d := s.desc g
    let ended := d.ctx.map (fun k => { k with endReached := true })
    OneDesc g s (s.finishOpen g)
    ∧ (∀ len, d.active.fn.edgeSynced = true → d.active.mode = .time len →
        (s.finishOpen g).desc g = { d with
          state := .closing, lastGate := true, ctx := ended, timeoutAt := d.active.startTimeout s.tb.coarse })
    ∧ (∀ len, d.active.fn.edgeSynced = true → d.active.mode = .count len →
        (s.finishOpen g).desc g = { d with lastGate := true, ctx := ended })
    ∧ (∀ len, d.active.fn = .totalize → d.active.mode = .time len →
        (s.finishOpen g).desc g = { d with
          lastGate := true, closeEvent := some { completion := .stopped, stamp := none, sample := s.sampleNow } })
    ∧ (d.active.fn = .interval ∨ (d.active.fn = .totalize ∧ d.active.mode = .aux) →
        (s.finishOpen g).desc g = { d with lastGate := true }) := by
  intro d ended
  unfold State.finishOpen
  dsimp only
  split
  next hsync hm =>
    refine ⟨.modDesc s g _, fun len _ _ => State.desc_modDesc_self .., fun len _ hm' => ?_, fun len hfn => ?_, fun h => ?_⟩
    · exact absurd (hm.symm.trans hm') (by simp)
    · exact absurd hfn (Fn.ne_of_edgeSynced hsync).1
    · rcases h with hfn | ⟨hfn, -⟩
      · exact absurd hfn (Fn.ne_of_edgeSynced hsync).2
      · exact absurd hfn (Fn.ne_of_edgeSynced hsync).1
  next hsync hm =>
    refine ⟨.modDesc s g _, fun len _ hm' => ?_, fun len _ _ => State.desc_modDesc_self .., fun len hfn => ?_, fun h => ?_⟩
    · exact absurd (hm.symm.trans hm') (by simp)
    · exact absurd hfn (Fn.ne_of_edgeSynced hsync).1
    · rcases h with hfn | ⟨hfn, -⟩
      · exact absurd hfn (Fn.ne_of_edgeSynced hsync).2
      · exact absurd hfn (Fn.ne_of_edgeSynced hsync).1
  next len hsync hfn hm =>
    rw [State.closeGate_totalizeNow (by rw [State.desc_modDesc_self]; exact hfn) rfl]
    refine ⟨(OneDesc.modDesc s g _).trans (.modDesc _ g _), fun len h => ?_, fun len h => ?_, fun len _ _ => ?_, fun h => ?_⟩
    · exact absurd hfn (Fn.ne_of_edgeSynced h).1
    · exact absurd hfn (Fn.ne_of_edgeSynced h).1
    · rw [State.desc_modDesc_self, State.desc_modDesc_self]
    · rcases h with h | ⟨-, h⟩
      · exact absurd (hfn.symm.trans h) (by simp)
      · exact absurd (hm.symm.trans h) (by simp)
  next h1 h2 h3 =>
    refine ⟨.modDesc s g _, fun len h hm => ?_, fun len h hm => ?_, fun len h hm => ?_, fun _ => State.desc_modDesc_self ..⟩
    · exact absurd hm (h1 len h)
    · exact absurd hm (h2 len h)
    · exact absurd hm (h3 len (by rw [h]; rfl) h)

theorem State.finish_one (s : State) (g : Desc) : OneDesc g s (s.finish g) := by
  unfold State.finish
  split
  · exact .refl g s
  · split
    · exact .refl g s
    · exact .modDesc s g _
    · exact .modDesc s g _
    · exact (s.finishOpen_cases g).1
    · exact .modDesc s g _

theorem gateStopBody_finish (s : State) (g : Desc) :
    gateStopBody [eightByte g, 1] s = (s.finish g, Answer.ack [((s.finish g).desc g).state.code]) := by
  unfold gateStopBody
  simp only [arg, List.getD_cons_zero, List.getD_cons_succ, readEight_eightByte]
  rfl

theorem gateStopBody_abort (s : State) (g : Desc) :
    gateStopBody [eightByte g, 2] s =
      (s.abort g, Answer.ack (((s.abort g).desc g).state.code :: ((s.abort g).desc g).active.bytes)) := by
  unfold gateStopBody
  simp only [arg, List.getD_cons_zero, List.getD_cons_succ, readEight_eightByte]
  rfl

theorem gateStopBody_invalid (s : State) (g : Desc) {b : Byte} (h1 : b ≠ 1) (h2 : b ≠ 2) :
    gateStopBody [eightByte g, b] s = (s, Answer.invalid 2) := by
  unfold gateStopBody
  simp only [arg, List.getD_cons_zero, List.getD_cons_succ, readEight_eightByte]
  rw [if_neg h1, if_neg h2]

/-- Settles O27: the two refusals, and the table of R98. -/
theorem gateStopFinishFollowsItsTable : Obligations.GateStopFinishFollowsItsTable := by
  unfold Obligations.GateStopFinishFollowsItsTable
  refine ⟨fun s b m hex hb => exec_body (i := .gateStopFinish [b, m]) rfl rfl rfl hex ?_,
    fun s g b h1 h2 hex => exec_body (i := .gateStopFinish [eightByte g, b]) rfl rfl rfl hex
      (gateStopBody_invalid _ g h1 h2), ?_⟩
  · simp [gateStopBody, arg, readEight_none hb]
  · intro s g hex t d synced ended
    have hd : t.desc g = d := State.taken_desc s _ g
    have hone := t.finish_one g
    have hopen := t.finishOpen_cases g
    dsimp only at hopen
    simp only [hd, show t.tb = s.tb from State.taken_tb s _, Fn.edgeSynced_iff] at hopen
    obtain ⟨-, htime, hcount, htot, hmark⟩ := hopen
    have hfin (hl : d.lastGate = false) : t.finish g = match d.state with
        | .off => t
        | .waitArm => t.modDesc g (fun d => { d with state := .off, timeoutAt := none })
        | .armed => t.modDesc g (fun d => { d with state := .off, timeoutAt := none })
        | .gateOpen => t.finishOpen g
        | .closing => t.modDesc g (fun d => { d with lastGate := true }) := by
      unfold State.finish
      rw [hd, hl]
      rfl
    refine ⟨t.finish g, exec_body (i := .gateStopFinish _) rfl rfl rfl hex (gateStopBody_finish t g), hone.1,
      fun k hk => (hone.2 k hk).trans (State.taken_desc s _ k), fun h => ?_, fun hl h => ?_, fun hl h => ?_, fun h hl => ?_⟩
    · by_cases hl : d.lastGate = true
      · unfold State.finish
        rw [hd, if_pos hl, hd]
      · exact (congrArg (State.desc · g) ((hfin (by simpa using hl)).trans (by rw [h.resolve_left hl]))).trans hd
    · have hstop : t.finish g = t.modDesc g (fun d => { d with state := .off, timeoutAt := none }) :=
        h.elim (fun h => (hfin hl).trans (by rw [h])) (fun h => (hfin hl).trans (by rw [h]))
      rw [hstop, State.desc_modDesc_self, hd]
    · have hstop : t.finish g = t.modDesc g (fun d => { d with lastGate := true }) := (hfin hl).trans (by rw [h])
      rw [hstop, State.desc_modDesc_self, hd]
    · have hstop : t.finish g = t.finishOpen g := (hfin hl).trans (by rw [h])
      rw [hstop]
      refine ⟨htime, hcount, fun len hfn hm => ⟨t.sampleNow, ?_, fun c => ?_, htot len hfn hm⟩, hmark⟩
      · exact congrArg Timebase.coarse (State.taken_tb s _)
      · rw [State.sampleNow, State.sampleAt_counts, State.taken_chan]

theorem Descriptor.applyPending_eq (d : Descriptor) :
    d.applyPending = { d with active := if d.commitPending then d.staged else d.active, commitPending := false } := by
  obtain ⟨_, _, _, pending, _, _, _, _, _, _, _, _⟩ := d
  cases pending <;> rfl

/-- Settles O28: the descriptor of the run ended, or, in OFF, left as it is. -/
theorem gateStopAbortEndsTheRun : Obligations.GateStopAbortEndsTheRun := by
  unfold Obligations.GateStopAbortEndsTheRun
  refine ⟨fun s b hex hb => exec_body (i := .gateStopAbort [b, 2]) rfl rfl rfl hex ?_, ?_⟩
  · simp [gateStopBody, arg, readEight_none hb]
  · intro s g hex t d
    have hd : t.desc g = d := State.taken_desc s _ g
    have hone : OneDesc g t (t.abort g) := by
      unfold State.abort
      split
      · exact .refl g t
      · exact (OneDesc.modDesc t g _).trans (.modDesc _ g _)
    refine ⟨t.abort g, exec_body (i := .gateStopAbort _) rfl rfl rfl hex (gateStopBody_abort t g), hone.1,
      fun k hk => (hone.2 k hk).trans (State.taken_desc s _ k), ?_⟩
    · unfold State.abort
      rw [hd]
      split
      · exact hd
      · unfold State.enterOff
        rw [State.desc_modDesc_self, State.desc_modDesc_self, hd]
        rw [Descriptor.applyPending_eq]

end

end Sys2Proof.Machine
end

section
/-!
GATE WRITE: the readers of its fields, the copy that allowed bytes give, and the first field that is refused (R76, R78, R176).
-/

namespace Sys2Proof.Machine

/-! ## The fields of a copy (R172, R176) -/

theorem readSecondary_unpaired {fn : Fn} (h : ¬(fn = .interval ∨ fn = .ratio)) (b : Byte) : readSecondary fn b = some none :=
  if_neg h

/-- The secondary of INTERVAL and RATIO: absent for 0, and else the channel that the byte names. -/
theorem readSecondary_paired {fn : Fn} (h : fn = .interval ∨ fn = .ratio) (b : Byte) :
    (4 < b.toNat → readSecondary fn b = none)
    ∧ (b.toNat ≤ 4 → ∃ v : Option Chan, readSecondary fn b = some v ∧ (b = 0 → v = none)
        ∧ (∀ e : Chan, b.toNat = e.val + 1 → v = some e) ∧ optChanByte v = b) := by
  unfold readSecondary
  simp only [if_pos h]
  clear h
  revert b
  decide

/-- The gate mode that an allowed kind gives, its length clamped (R78). -/
theorem readMode_allowed {kind : Byte} (h : kind.toNat ≤ 3) (len : Nat) :
    ∃ m : GateMode, readMode kind len = some m
      ∧ m = (if kind = 0 then .none else if kind = 1 then .time (clamp 1 100000000 len)
          else if kind = 2 then .count (clamp 1 (2 ^ 40 - 1) len) else .aux)
      ∧ m.kind = kind
      ∧ m.length = if kind = 1 then clamp 1 100000000 len else if kind = 2 then clamp 1 (2 ^ 40 - 1) len else 0 := by
  have hk : kind = 0 ∨ kind = 1 ∨ kind = 2 ∨ kind = 3 := by
    revert kind
    decide
  rcases hk with rfl | rfl | rfl | rfl <;> exact ⟨_, rfl, rfl, rfl, rfl⟩

theorem readMode_refused {kind : Byte} (h : 3 < kind.toNat) (len : Nat) : readMode kind len = none := by
  have hk : kind ≠ 0 ∧ kind ≠ 1 ∧ kind ≠ 2 ∧ kind ≠ 3 := by
    revert kind
    decide
  obtain ⟨h0, h1, h2, h3⟩ := hk
  unfold readMode
  rw [if_neg h0, if_neg h1, if_neg h2, if_neg h3]

/-- A gate mode as the staged copy holds it is read back. -/
theorem readMode_back {m : GateMode} (h : match m with
    | .time g => 1 ≤ g ∧ g ≤ 100000000
    | .count n => 1 ≤ n ∧ n ≤ 2 ^ 40 - 1
    | .aux => True
    | .none => True) : readMode m.kind (leValue (leBytes 8 m.length)) = some m := by
  cases m with
  | time g =>
    have hl : leValue (leBytes 8 g) = g := leValue_leBytes (by omega)
    have hc : clamp 1 100000000 g = g := by
      unfold clamp
      rw [if_neg (by omega), if_neg (by omega)]
    show some (GateMode.time (clamp 1 100000000 (leValue (leBytes 8 g)))) = _
    rw [hl, hc]
  | count n =>
    have hl : leValue (leBytes 8 n) = n := leValue_leBytes (by omega)
    have hc : clamp 1 (2 ^ 40 - 1) n = n := by
      unfold clamp
      rw [if_neg (by omega), if_neg (by omega)]
    show some (GateMode.count (clamp 1 (2 ^ 40 - 1) (leValue (leBytes 8 n)))) = _
    rw [hl, hc]
  | aux => rfl
  | none => rfl

theorem readArm_allowed {kind src : Byte} (h : kind.toNat ≤ 2) (hsrc : kind = 2 → src.toNat ≤ 7) :
    ∃ a : ArmSource, readArm kind src = .ok a ∧ (kind = 0 → a = .immediate) ∧ (kind = 1 → a = .aux)
      ∧ (kind = 2 → ∀ g : Desc, src.toNat = g.val → a = .chain g)
      ∧ a.kind = kind ∧ a.chainByte = if kind = 2 then src else 0 := by
  have hk : kind = 0 ∨ kind = 1 ∨ kind = 2 := by
    clear hsrc
    revert kind
    decide
  rcases hk with rfl | rfl | rfl
  · exact ⟨.immediate, rfl, fun _ => rfl, fun h => absurd h (by decide), fun h => absurd h (by decide), rfl, rfl⟩
  · exact ⟨.aux, rfl, fun h => absurd h (by decide), fun _ => rfl, fun h => absurd h (by decide), rfl, rfl⟩
  · rcases readEight_cases src with ⟨g, hg, rfl⟩ | ⟨-, hn⟩
    · refine ⟨.chain g, ?_, fun h => absurd h (by decide), fun h => absurd h (by decide), fun _ e he => ?_, rfl, rfl⟩
      · show (match readEight (eightByte g) with | some g => Except.ok (ArmSource.chain g) | none => .error 13) = _
        rw [hg]
      · rw [eightByte_of_toNat he, readEight_eightByte] at hg
        rw [Option.some.inj hg]
    · have := hsrc rfl
      omega

theorem readArm_refused {kind src : Byte} :
    (2 < kind.toNat → readArm kind src = .error 12) ∧ (kind = 2 → 7 < src.toNat → readArm kind src = .error 13) := by
  refine ⟨fun h => ?_, fun h hs => ?_⟩
  · have hk : kind ≠ 0 ∧ kind ≠ 1 ∧ kind ≠ 2 := by
      revert kind
      decide
    obtain ⟨h0, h1, h2⟩ := hk
    unfold readArm
    rw [if_neg h0, if_neg h1, if_neg h2]
  · subst h
    show (match readEight src with | some g => Except.ok (ArmSource.chain g) | none => .error 13) = _
    rw [readEight_none hs]

theorem readArm_back (a : ArmSource) : readArm a.kind a.chainByte = .ok a := by
  cases a with
  | immediate => rfl
  | aux => rfl
  | chain g =>
    show (match readEight (eightByte g) with | some g => Except.ok (ArmSource.chain g) | none => .error 13) = _
    rw [readEight_eightByte]

theorem readFlag_spec (b : Byte) :
    (b.toNat ≤ 1 → readFlag b = some (decide (b = 1)) ∧ flagByte (decide (b = 1)) = b) ∧ (1 < b.toNat → readFlag b = none) := by
  revert b
  decide

theorem readFn_refused {b : Byte} (h : 5 < b.toNat) : readFn b = none := by
  revert b
  decide

theorem readFn_allowed {b : Byte} (h0 : b.toNat ≠ 0) (h : b.toNat ≤ 5) :
    ∃ fn : Fn, readFn b = some fn ∧ fn ≠ .none ∧ ((fn = .interval ∨ fn = .ratio) ↔ b.toNat = 3 ∨ b.toNat = 5) := by
  have hb : b = 1 ∨ b = 2 ∨ b = 3 ∨ b = 4 ∨ b = 5 := by
    revert b
    decide
  rcases hb with rfl | rfl | rfl | rfl | rfl <;> exact ⟨_, rfl, by decide, by decide⟩

theorem readTimeout_spec (b : Byte) :
    readTimeout b = (if b = 0xFF then none else if 15 < b.toNat then some 15 else some b.toNat)
    ∧ timeoutByte (readTimeout b) = if b = 0xFF then 0xFF else if 15 < b.toNat then 15 else b := by
  revert b
  decide

theorem readTimeout_back {e : Nat} (h : e ≤ 15) : readTimeout (timeoutByte (some e)) = some e := by
  interval_cases e <;> rfl

/-! ## The copy (R76, R78) -/

section
variable {fnB primB secB kindB armB srcB repB toB slotB : Byte} {len : List Byte} {fn : Fn}

/-- The copy of a function, by the readers of its other fields. -/
theorem readCopy_of_fn (hfn : readFn fnB = some fn) (hne : fn ≠ .none) :
    readCopy fnB primB secB kindB len armB srcB repB toB slotB =
      match readChan primB, readSecondary fn secB, readMode kindB (leValue len), readArm armB srcB,
        readFlag repB, readEight slotB with
      | none, _, _, _, _, _ => .error 1
      | some _, none, _, _, _, _ => .error 2
      | some _, some _, none, _, _, _ => .error 3
      | some _, some _, some _, .error k, _, _ => .error k
      | some _, some _, some _, .ok _, none, _ => .error 14
      | some _, some _, some _, .ok _, some _, none => .error 16
      | some p, some s, some m, .ok a, some r, some k =>
        .ok { fn := fn, primary := some p, secondary := s, mode := m, arm := a, continuous := r,
              timeout := readTimeout toB, slot := k } := by
  unfold readCopy
  rw [hfn]
  cases fn with
  | none => exact absurd rfl hne
  | _ => rfl

/-- The copy that readable fields give. -/
theorem readCopy_ok {p : Chan} {v : Option Chan} {m : GateMode} {a : ArmSource} {r : Bool} {k : SlotId}
    (hfn : readFn fnB = some fn) (hne : fn ≠ .none) (hp : readChan primB = some p) (hv : readSecondary fn secB = some v)
    (hm : readMode kindB (leValue len) = some m) (ha : readArm armB srcB = .ok a) (hr : readFlag repB = some r)
    (hk : readEight slotB = some k) :
    readCopy fnB primB secB kindB len armB srcB repB toB slotB =
      .ok { fn := fn, primary := some p, secondary := v, mode := m, arm := a, continuous := r,
            timeout := readTimeout toB, slot := k } := by
  rw [readCopy_of_fn hfn hne, hp, hv, hm, ha, hr, hk]

/-- The first field behind an allowed function that is refused, in the order of R76. -/
theorem readCopy_refusedField (hfn : readFn fnB = some fn) (hne : fn ≠ .none) {paired : Prop} [Decidable paired]
    (hpair : (fn = .interval ∨ fn = .ratio) ↔ paired) :
    let copy := readCopy fnB primB secB kindB len armB srcB repB toB slotB
    if ¬(1 ≤ primB.toNat ∧ primB.toNat ≤ 4) then copy = .error 1
    else if paired ∧ 4 < secB.toNat then copy = .error 2
    else if 3 < kindB.toNat then copy = .error 3
    else if 2 < armB.toNat then copy = .error 12
    else if armB.toNat = 2 ∧ 7 < srcB.toNat then copy = .error 13
    else if 1 < repB.toNat then copy = .error 14
    else if 7 < slotB.toNat then copy = .error 16
    else True := by
  dsimp only
  rw [readCopy_of_fn hfn hne]
  by_cases h : ¬(1 ≤ primB.toNat ∧ primB.toNat ≤ 4)
  · rw [if_pos h, readChan_none h]
  rw [if_neg h]
  obtain ⟨p, hp, -⟩ | ⟨-, hp⟩ := readChan_cases primB
  swap
  · exact absurd hp h
  rw [hp]
  by_cases h : paired ∧ 4 < secB.toNat
  · rw [if_pos h, (readSecondary_paired (hpair.mpr h.1) secB).1 h.2]
  rw [if_neg h]
  have hs : ∃ v, readSecondary fn secB = some v := by
    by_cases hq : fn = .interval ∨ fn = .ratio
    · obtain ⟨v, hv, -⟩ := (readSecondary_paired hq secB).2 (not_lt.mp fun hs => h ⟨hpair.mp hq, hs⟩)
      exact ⟨v, hv⟩
    · exact ⟨none, readSecondary_unpaired hq secB⟩
  obtain ⟨v, hv⟩ := hs
  rw [hv]
  by_cases h : 3 < kindB.toNat
  · rw [if_pos h, readMode_refused h]
  rw [if_neg h]
  obtain ⟨m, hm, -⟩ := readMode_allowed (not_lt.mp h) (leValue len)
  rw [hm]
  by_cases h2 : 2 < armB.toNat
  · rw [if_pos h2, readArm_refused.1 h2]
  rw [if_neg h2]
  by_cases h : armB.toNat = 2 ∧ 7 < srcB.toNat
  · rw [if_pos h, readArm_refused.2 (BitVec.eq_of_toNat_eq h.1) h.2]
  rw [if_neg h]
  obtain ⟨a, ha, -⟩ := readArm_allowed (src := srcB) (not_lt.mp h2) (fun e => not_lt.mp fun hs => h ⟨by rw [e]; rfl, hs⟩)
  rw [ha]
  by_cases h : 1 < repB.toNat
  · rw [if_pos h, (readFlag_spec repB).2 h]
  rw [if_neg h, ((readFlag_spec repB).1 (not_lt.mp h)).1]
  by_cases h : 7 < slotB.toNat
  · rw [if_pos h, readEight_none h]
  rw [if_neg h]
  trivial

end

/-- A copy as GATE WRITE stores it is read back from its bytes. -/
theorem readCopy_back {cp : GateCopy} (h : cp.stagedForm) :
    readCopy cp.fn.code (optChanByte cp.primary) (optChanByte cp.secondary) cp.mode.kind (leBytes 8 cp.mode.length)
      cp.arm.kind cp.arm.chainByte (flagByte cp.continuous) (timeoutByte cp.timeout) (eightByte cp.slot) = .ok cp := by
  rcases h with rfl | ⟨hfn, hprim, hsec, hmode, hto⟩
  · rfl
  · obtain ⟨c, hc⟩ := Option.isSome_iff_exists.mp hprim
    have hsecond : readSecondary cp.fn (optChanByte cp.secondary) = some cp.secondary := by
      by_cases hp : cp.fn = .interval ∨ cp.fn = .ratio
      · unfold readSecondary
        rw [if_pos hp]
        generalize cp.secondary = v
        revert v
        decide
      · cases hv : cp.secondary with
        | none => exact readSecondary_unpaired hp _
        | some e => exact absurd (hsec (by rw [hv]; rfl)) hp
    have htimeout : readTimeout (timeoutByte cp.timeout) = cp.timeout := by
      cases ht : cp.timeout with
      | none => rfl
      | some e => exact readTimeout_back (hto e ht)
    rw [readCopy_ok (readFn_code _) hfn (by rw [hc]; exact readChan_chanByte c) hsecond (readMode_back hmode) (readArm_back _)
      (readFlag_flagByte _) (readEight_eightByte _), htimeout, ← hc]

/-! ## The command (R78) -/

section
variable {s : State} {g : Desc}

/-- GATE WRITE of a descriptor by its copy bytes. -/
theorem gateWriteBody_desc {args : List Byte} (h : readEight (arg args 0) = some g) :
    gateWriteBody args s =
      if (s.desc g).commitPending then (s, Answer.refuse .busy)
      else match readCopy (arg args 1) (arg args 2) (arg args 3) (arg args 4) ((args.drop 5).take 8)
          (arg args 13) (arg args 14) (arg args 15) (arg args 16) (arg args 17) with
        | .error k => (s, Answer.invalid (2 + k))
        | .ok cp => (s.modDesc g (fun d => { d with staged := cp }), Answer.ack cp.bytes) := by
  unfold gateWriteBody
  rw [h] <;> rfl

/-- The same with the copy bytes spelled out. -/
theorem gateWriteBody_fields {f p v k ak src rep tmo sl r0 r1 r2 : Byte} {len : List Byte} (hl : len.length = 8) :
    gateWriteBody (eightByte g :: ([f, p, v, k] ++ len ++ [ak, src, rep, tmo, sl, r0, r1, r2])) s =
      if (s.desc g).commitPending then (s, Answer.refuse .busy)
      else match readCopy f p v k len ak src rep tmo sl with
        | .error k => (s, Answer.invalid (2 + k))
        | .ok cp => (s.modDesc g (fun d => { d with staged := cp }), Answer.ack cp.bytes) := by
  match len, hl with
  | [l0, l1, l2, l3, l4, l5, l6, l7], _ => exact gateWriteBody_desc (readEight_eightByte g)

end

/-- Settles O24: any copy stored as its bytes spell it, raw bytes clamped, and the first bad field named. -/
theorem gateWriteStoresTheClampedCopy : Obligations.GateWriteStoresTheClampedCopy := by
  unfold Obligations.GateWriteStoresTheClampedCopy
  refine ⟨?_, ?_, ?_⟩
  · intro s g cp hform hex t
    have hd : t.desc g = s.desc g := State.taken_desc s _ g
    have body := gateWriteBody_fields (s := t) (g := g) (f := cp.fn.code) (p := optChanByte cp.primary)
      (v := optChanByte cp.secondary) (k := cp.mode.kind) (ak := cp.arm.kind) (src := cp.arm.chainByte)
      (rep := flagByte cp.continuous) (tmo := timeoutByte cp.timeout) (sl := eightByte cp.slot) (r0 := 0) (r1 := 0) (r2 := 0)
      (leBytes_length 8 cp.mode.length)
    rw [readCopy_back hform, hd] at body
    refine ⟨fun hp => ?_, fun hp => ?_⟩
    · exact exec_body (i := .gateWrite _) rfl rfl rfl hex (body.trans (if_pos hp))
    · exact exec_body (i := .gateWrite _) rfl rfl rfl hex (body.trans (if_neg (by simp [hp])))
  · intro s g fn c second kind length armKind source again timeout k r0 r1 r2 paired hfn hsec hkind harm hsrc hagain args
      hex hp g0 n0
    have hd : (s.taken (0x40 :: args)).desc g = s.desc g := State.taken_desc s _ g
    have hlen : leValue (leBytes 8 length.toNat) = length.toNat := leValue_leBytes length.isLt
    obtain ⟨m, hm, hmode, hmk, hml⟩ := readMode_allowed hkind (leValue (leBytes 8 length.toNat))
    obtain ⟨a, ha, hi, hx, hc, hak, hach⟩ := readArm_allowed harm hsrc
    obtain ⟨hr, hrb⟩ := (readFlag_spec again).1 hagain
    obtain ⟨ht, htb⟩ := readTimeout_spec timeout
    have hsecond : ∃ v, readSecondary fn second = some v ∧ (¬paired → v = none)
        ∧ (paired → (second = 0 → v = none) ∧ ∀ e : Chan, second.toNat = e.val + 1 → v = some e)
        ∧ optChanByte v = if paired then second else 0 := by
      by_cases hpair : paired
      · obtain ⟨v, hv, h0, he, hb⟩ := (readSecondary_paired hpair second).2 (hsec hpair)
        exact ⟨v, hv, fun hn => absurd hpair hn, fun _ => ⟨h0, he⟩, by rw [if_pos hpair]; exact hb⟩
      · exact ⟨none, readSecondary_unpaired hpair second, fun _ => rfl, fun h => absurd h hpair, by rw [if_neg hpair]; rfl⟩
    obtain ⟨v, hv, hv0, hv1, hvb⟩ := hsecond
    rw [hlen] at hmode hml
    have body := gateWriteBody_fields (s := s.taken (0x40 :: args)) (g := g) (f := fn.code) (p := chanByte c) (v := second)
      (k := kind) (ak := armKind) (src := source) (rep := again) (tmo := timeout) (sl := eightByte k) (r0 := r0) (r1 := r1)
      (r2 := r2) (leBytes_length 8 length.toNat)
    rw [readCopy_ok (readFn_code fn) hfn (readChan_chanByte c) hv hm ha hr (readEight_eightByte k), hd,
      if_neg (by simp [hp])] at body
    refine ⟨_, exec_body (i := .gateWrite args) rfl rfl (by simp [args]) hex body, rfl, rfl, hv0, hv1, hmode, hi, hx, hc,
      rfl, ht, rfl, ?_⟩
    show [fn.code, chanByte c, optChanByte v, m.kind] ++ leBytes 8 m.length
      ++ [a.kind, a.chainByte, flagByte (decide (again = 1)), timeoutByte (readTimeout timeout), eightByte k, 0, 0, 0] = _
    rw [hvb, hmk, hml, hak, hach, hrb, htb]
    rfl
  · intro s args hl hex t answers field
    have run {u : State} {a : Answer} (hb : gateWriteBody args t = (u, a)) : answers u a :=
      exec_body (i := .gateWrite args) rfl rfl hl hex hb
    refine ⟨fun h => run ?_, fun g hg => ?_⟩
    · unfold gateWriteBody
      rw [show readEight (arg args 0) = none from readEight_none h]
    · have body := gateWriteBody_desc (s := t) (g := g) (args := args) (by
        rw [show arg args 0 = eightByte g from eightByte_of_toNat hg]
        exact readEight_eightByte g)
      rw [State.taken_desc] at body
      by_cases hp : (s.desc g).commitPending = true
      · rw [if_pos hp] at body ⊢
        exact run body
      rw [if_neg hp] at body ⊢
      by_cases h5 : 5 < field 1
      · rw [if_pos h5]
        rw [show readCopy (arg args 1) (arg args 2) (arg args 3) (arg args 4) ((args.drop 5).take 8)
          (arg args 13) (arg args 14) (arg args 15) (arg args 16) (arg args 17) = .error 0 by
            unfold readCopy; rw [show readFn (arg args 1) = none from readFn_refused h5]] at body
        exact run body
      rw [if_neg h5]
      by_cases h0 : field 1 = 0
      · rw [if_pos h0]
        rw [show readCopy (arg args 1) (arg args 2) (arg args 3) (arg args 4) ((args.drop 5).take 8)
          (arg args 13) (arg args 14) (arg args 15) (arg args 16) (arg args 17) = .ok GateCopy.empty by
            unfold readCopy; rw [show arg args 1 = 0 from BitVec.eq_of_toNat_eq h0]; rfl] at body
        exact run body
      rw [if_neg h0]
      obtain ⟨fn, hfn, hne, hpair⟩ := readFn_allowed (b := arg args 1) h0 (not_lt.mp h5)
      have hrefused := readCopy_refusedField (primB := arg args 2) (secB := arg args 3) (kindB := arg args 4)
        (len := (args.drop 5).take 8) (armB := arg args 13) (srcB := arg args 14) (repB := arg args 15) (toB := arg args 16)
        (slotB := arg args 17) hfn hne hpair
      have named {k : Nat} (hc : readCopy (arg args 1) (arg args 2) (arg args 3) (arg args 4) ((args.drop 5).take 8)
          (arg args 13) (arg args 14) (arg args 15) (arg args 16) (arg args 17) = .error k) :
          answers t (Answer.invalid (2 + k)) := by
        rw [hc] at body
        exact run body
      dsimp only at hrefused
      have step {p : Prop} [Decidable p] {k : Nat} {rest rest' : Prop}
          (h : if p then readCopy (arg args 1) (arg args 2) (arg args 3) (arg args 4) ((args.drop 5).take 8)
            (arg args 13) (arg args 14) (arg args 15) (arg args 16) (arg args 17) = .error k else rest)
          (hrest : rest → rest') : if p then answers t (Answer.invalid (2 + k)) else rest' := by
        split_ifs with hp
        · rw [if_pos hp] at h
          exact named h
        · rw [if_neg hp] at h
          exact hrest h
      exact step hrefused fun h => step h fun h => step h fun h => step h fun h => step h fun h => step h fun h =>
        step h fun _ => trivial

end Sys2Proof.Machine
end

section
/-!
What the transmitter sends: the arbiter's pick and the layouts of replies, notices, stream frames and result records (R145,
R162, R164, R174, R175).
-/

namespace Sys2Proof.Machine

/-! ## The pick (R164) -/

section
variable {s : State}

theorem State.arbitrate_free (hp : s.power = .ready) (hc : s.lnkclk = true) (ht : s.link.tx = none) :
    s.arbitrate = s.pick := by
  unfold State.arbitrate State.txFree
  rw [if_pos (by simp [hp, hc, ht])]

theorem State.arbitrate_held (h : s.power ≠ .ready ∨ s.lnkclk = false ∨ s.link.tx ≠ none) : s.arbitrate = s := by
  unfold State.arbitrate State.txFree
  refine if_neg fun hf => ?_
  simp only [Bool.and_eq_true, decide_eq_true_eq, Option.isNone_iff_eq_none] at hf
  obtain ⟨⟨hp, hc⟩, ht⟩ := hf
  rcases h with h | h | h
  · exact h hp
  · exact absurd hc (by simp [h])
  · exact h ht

end

/-! ## Layouts (R172, R174, R175) -/

theorem flagByte_eq (b : Bool) : flagByte b = if b then 1 else 0 := rfl

theorem Reply.payload_eq (r : Reply) :
    r.payload = [r.code, if r.nak = none then 0 else 1,
        match r.nak with
        | none => 0
        | some .unknown => 1
        | some .length => 2
        | some .range => 3
        | some .busy => 4
        | some .invalid => 5
        | some .noRef => 6
        | some .noTimebase => 7, r.field]
      ++ leBytes 2 r.number.toNat ++ r.data := by
  unfold Reply.payload
  cases r.nak with
  | none => rfl
  | some k => cases k <;> rfl

theorem streamPayload_of_fifo (number : BitVec 16) (fifo : List Entry) :
    streamPayload number (fifo.take 32) (fifo.drop 32).length =
      leBytes 2 number.toNat ++ [BitVec.ofNat 8 (min 32 fifo.length), 0] ++ leBytes 2 (fifo.length - 32) ++ [0, 0]
        ++ (fifo.take 32).flatMap Entry.bytes := by
  unfold streamPayload
  rw [List.length_take, List.length_drop]

theorem recordBytes_some (r : Record) :
    recordBytes (some r) =
      ([BitVec.ofNat 8 r.desc.val, r.fn.code, r.completion.code, r.flags.byte r.overrange,
        (if r.value = none then 0 else 1) + (if r.secondaryDelta = none then 0 else 2), 0, 0, 0] : List Byte)
      ++ leBytes 4 r.gateNumber.toNat ++ [0, 0, 0, 0] ++ leBytes 8 r.tOpen.toNat ++ leBytes 8 r.tClose.toNat
      ++ leBytes 6 r.nOpen.toNat ++ leBytes 6 r.nClose.toNat
      ++ leBytes 6 (r.secondaryDelta.getD 0).toNat ++ [0, 0, 0, 0, 0, 0] ++ leSigned (r.value.getD 0) := by
  have hbit {α : Type} (o : Option α) (b : Byte) : (if o = none then 0 else b) = if o.isSome then b else 0 := by
    cases o <;> rfl
  rw [hbit, hbit]
  rfl

theorem leSigned_length (v : Int) : (leSigned v).length = 8 := leBytes_length ..

/-- Settles O46: the pick in its order of priority, each payload and the 64 bytes of a record. -/
theorem arbiterServesReplyNoticeStream : Obligations.ArbiterServesReplyNoticeStream := by
  unfold Obligations.ArbiterServesReplyNoticeStream
  intro flagsByte number contents entryBytes
  refine ⟨fun s => ⟨State.arbitrate_held, fun hp hc ht => ⟨fun r rest hq => ?_, fun e rest hq hn => ?_, fun hq hn hf => ?_,
    fun hq hn hf => ?_⟩⟩, rfl, fun r => ⟨?_, recordBytes_some r⟩⟩
  · rw [State.arbitrate_free hp hc ht, State.pick, hq]
    show s.sendReply r rest = _
    rw [State.sendReply, Reply.payload_eq]
    rfl
  · have hcont : (e.key.header.1 :: e.key.header.2 :: BitVec.ofNat 8 e.postings :: 0 :: s.noticeContents e.key) =
        (contents s e.key).1 ++ [BitVec.ofNat 8 e.postings, 0] ++ (contents s e.key).2 := by
      cases e.key with
      | result k => rfl
      | gate g => rfl
      | timebase => rfl
      | cal c => rfl
      | advise c => rfl
    rw [State.arbitrate_free hp hc ht, State.pick, hq, hn]
    show s.sendNotice e rest = _
    rw [← hcont]
    rfl
  · have hentry : entryBytes = Entry.bytes := by
      funext e
      cases e <;> rfl
    obtain ⟨e, rest, he⟩ := List.exists_cons_of_ne_nil hf
    have hpick : s.arbitrate = s.sendStream := by
      rw [State.arbitrate_free hp hc ht, State.pick, hq, hn, he]
    rw [hpick, hentry, ← streamPayload_of_fifo]
    rfl
  · rw [State.arbitrate_free hp hc ht, State.pick, hq, hn, hf]
  · rw [recordBytes_some]
    simp [leSigned_length]

end Sys2Proof.Machine
end

section
/-!
Commands and their replies: an executed command places one reply (R159, R160), and payloads and rows agree (R173).
-/

namespace Sys2Proof.Machine

/-! ## What a block leaves of the link (R159) -/

/-- From `s` to `u` the execution number, the waiting replies and the waiting commands stay. -/
def State.queuesKept (s u : State) : Prop :=
  u.link.number = s.link.number ∧ u.link.replyQueue = s.link.replyQueue ∧ u.link.commandQueue = s.link.commandQueue

section
variable {s t u : State}

theorem State.queuesKept.of_notices (h : u.link = { s.link with noticeQueue := u.link.noticeQueue }) : s.queuesKept u := by
  rw [State.queuesKept, h]
  exact ⟨rfl, rfl, rfl⟩

theorem State.queuesKept.trans (h : s.queuesKept t) (k : t.queuesKept u) : s.queuesKept u := by
  obtain ⟨h1, h2, h3⟩ := h
  obtain ⟨k1, k2, k3⟩ := k
  exact ⟨k1.trans h1, k2.trans h2, k3.trans h3⟩

/-- Publishes and postings leave all of the link but the notice queue. -/
theorem Reach.link (h : Reach false s t) : t.link = { s.link with noticeQueue := t.link.noticeQueue } := by
  induction h with
  | refl => rfl
  | same _ _ _ hlink ih => rw [hlink]; exact ih
  | post _ key ih => rw [(EngineOnly.post _ key).link, ih]
  | publish _ k r ih => rw [(EngineOnly.publish _ k r).link, ih]
  | offer _ st ih => exact ih
  | arbitrate hp => exact absurd hp Bool.false_ne_true

theorem block_queuesKept {i : Instr} {p : List Byte} (hp : i.payload = some p) (h : s.canExecute p = true) :
    s.queuesKept (i.block s).1 := by
  have same {u : State} (hl : u.link = s.link) : s.queuesKept u := .of_notices (by rw [hl])
  refine Reach.block (p := false) (P := s.queuesKept) (block_step hp h) (same rfl) (fun t hr => .of_notices hr.link) ⟨rfl, rfl, rfl⟩
    (fun _ => ⟨rfl, rfl, rfl⟩) (fun k => same rfl) (fun set => .of_notices ?_) (fun set => .of_notices ?_)
    (fun set => .of_notices ?_) (same rfl) (fun m => ⟨rfl, rfl, rfl⟩)
  · exact (EngineOnly.forSlots (fun k u => .modSlot u k _) s set).link
  · exact (EngineOnly.forSlots (fun k u => .release u k) s set).link
  · exact (EngineOnly.forSlots (fun k u => .modSlot u k _) s set).link

end

/-! ## Refusals (R160) -/

/-- A block that refuses changes nothing and answers with no data. -/
def refusesPlainly (body : State → State × Answer) : Prop :=
  ∀ s, (body s).2.nak ≠ none → (body s).1 = s ∧ (body s).2.data = [] ∧ (body s).2.restart = none

theorem refusesPlainly.withLength {body : State → State × Answer} (h : refusesPlainly body) (n : Nat) (args : List Byte) :
    refusesPlainly (Machine.withLength n args body) := by
  intro s
  unfold Machine.withLength
  split
  · exact h s
  · exact fun _ => ⟨rfl, rfl, rfl⟩

section
variable (args : List Byte)

theorem refusesPlainly.ack (f : State → State × List Byte) : refusesPlainly (fun s => ((f s).1, Answer.ack (f s).2)) :=
  fun _ h => absurd rfl h

theorem plainly_ack {s u : State} {data : List Byte} :
    (u, Answer.ack data).2.nak ≠ none → (u, Answer.ack data).1 = s ∧ (u, Answer.ack data).2.data = []
      ∧ (u, Answer.ack data).2.restart = none :=
  fun h => absurd rfl h

theorem plainly_refuse {s : State} {a : Answer} (hd : a.data = []) (hr : a.restart = none) :
    (s, a).2.nak ≠ none → (s, a).1 = s ∧ (s, a).2.data = [] ∧ (s, a).2.restart = none :=
  fun _ => ⟨rfl, hd, hr⟩

theorem refusesPlainly.tbConfig : refusesPlainly (tbConfigBody args) := by
  intro s
  unfold tbConfigBody
  split
  · exact plainly_refuse rfl rfl
  · split
    · exact plainly_refuse rfl rfl
    · exact plainly_refuse rfl rfl
    · exact plainly_refuse rfl rfl
    · exact plainly_refuse rfl rfl
    · exact plainly_refuse rfl rfl
    · exact plainly_ack

theorem refusesPlainly.tbStart : refusesPlainly tbStartBody := by
  intro s
  unfold tbStartBody
  split
  · exact plainly_refuse rfl rfl
  · split
    · exact plainly_refuse rfl rfl
    · exact plainly_ack

theorem refusesPlainly.tbStop : refusesPlainly tbStopBody := by
  intro s
  unfold tbStopBody
  split
  · exact plainly_ack
  · exact plainly_ack

theorem refusesPlainly.selectInRun (src : Source) : refusesPlainly (fun s => s.selectInRun src) := by
  intro s
  dsimp only
  unfold State.selectInRun
  dsimp only
  split
  · exact plainly_ack
  · split
    · exact plainly_ack
    · exact plainly_refuse rfl rfl
  · exact plainly_ack
  · split
    · exact plainly_ack
    · exact plainly_ack

theorem refusesPlainly.tbSelect : refusesPlainly (tbSelectBody args) := by
  intro s
  unfold tbSelectBody
  split
  · exact plainly_refuse rfl rfl
  · exact plainly_ack
  · exact plainly_refuse rfl rfl
  · exact plainly_refuse rfl rfl
  · exact refusesPlainly.selectInRun _ s

theorem refusesPlainly.auxSet : refusesPlainly (auxSetBody args) := by
  intro s
  unfold auxSetBody
  split
  · exact plainly_refuse rfl rfl
  · exact plainly_refuse rfl rfl
  · split
    · exact plainly_refuse rfl rfl
    · split
      · exact plainly_refuse rfl rfl
      · exact plainly_ack

theorem refusesPlainly.channelSet : refusesPlainly (channelSetBody args) := by
  intro s
  unfold channelSetBody
  split
  · exact plainly_refuse rfl rfl
  · split
    · exact plainly_refuse rfl rfl
    · split
      · exact plainly_refuse rfl rfl
      · exact plainly_ack

theorem refusesPlainly.channelRead : refusesPlainly (channelReadBody args) := by
  intro s
  unfold channelReadBody
  split
  · exact plainly_refuse rfl rfl
  · exact plainly_ack

theorem refusesPlainly.calibrate : refusesPlainly (calibrateBody args) := by
  intro s
  unfold calibrateBody
  split
  · exact plainly_refuse rfl rfl
  · split
    · exact plainly_refuse rfl rfl
    · split
      · exact plainly_refuse rfl rfl
      · exact plainly_ack

theorem refusesPlainly.tableRead : refusesPlainly (tableReadBody args) := by
  intro s
  unfold tableReadBody
  split
  · exact plainly_refuse rfl rfl
  · exact plainly_ack

theorem refusesPlainly.gateWrite : refusesPlainly (gateWriteBody args) := by
  intro s
  unfold gateWriteBody
  split
  · exact plainly_refuse rfl rfl
  · split
    · exact plainly_refuse rfl rfl
    · split
      · exact plainly_refuse rfl rfl
      · exact plainly_ack

theorem refusesPlainly.gateCommit : refusesPlainly (gateCommitBody args) := by
  intro s
  unfold gateCommitBody
  split
  · exact plainly_refuse rfl rfl
  · split
    · exact plainly_refuse rfl rfl
    · split
      · exact plainly_refuse rfl rfl
      · exact plainly_ack

theorem refusesPlainly.gateEnable : refusesPlainly (gateEnableBody args) := by
  intro s
  unfold gateEnableBody
  split
  · exact plainly_refuse rfl rfl
  · split
    · exact plainly_refuse rfl rfl
    · split
      · exact plainly_refuse rfl rfl
      · exact plainly_ack

theorem refusesPlainly.gateStop : refusesPlainly (gateStopBody args) := by
  intro s
  unfold gateStopBody
  split
  · exact plainly_refuse rfl rfl
  · split
    · exact plainly_ack
    · split
      · exact plainly_ack
      · exact plainly_refuse rfl rfl

theorem refusesPlainly.gateRead : refusesPlainly (gateReadBody args) := by
  intro s
  unfold gateReadBody
  split
  · exact plainly_refuse rfl rfl
  · exact plainly_ack

theorem refusesPlainly.slotRead : refusesPlainly (slotReadBody args) := by
  intro s
  unfold slotReadBody
  split
  · exact plainly_refuse rfl rfl
  · exact plainly_refuse rfl rfl
  · exact plainly_ack

theorem refusesPlainly.slotHold : refusesPlainly (slotHoldBody args) := by
  intro s
  unfold slotHoldBody
  split
  · exact plainly_refuse rfl rfl
  · exact plainly_ack

theorem refusesPlainly.slotRelease : refusesPlainly (slotReleaseBody args) := by
  intro s
  unfold slotReleaseBody
  split
  · exact plainly_refuse rfl rfl
  · exact plainly_ack

theorem refusesPlainly.statsClear : refusesPlainly (statsClearBody args) := by
  intro s
  unfold statsClearBody
  split
  · exact plainly_refuse rfl rfl
  · exact plainly_ack

theorem refusesPlainly.status : refusesPlainly (statusBody args) := by
  intro s
  unfold statusBody
  split
  · exact plainly_refuse rfl rfl
  · exact plainly_ack

theorem refusesPlainly.restart : refusesPlainly (restartBody args) := by
  intro s
  unfold restartBody
  split
  · exact plainly_refuse rfl rfl
  · exact fun h => absurd rfl h

theorem refusesPlainly.streamSet : refusesPlainly (streamSetBody args) := by
  intro s
  unfold streamSetBody
  split
  · exact plainly_refuse rfl rfl
  · exact plainly_ack

theorem refusesPlainly.noticeMask : refusesPlainly (noticeMaskBody args) := by
  intro s
  unfold noticeMaskBody
  split
  · exact plainly_refuse rfl rfl
  · exact plainly_ack

end

theorem block_refusesPlainly {i : Instr} {p : List Byte} (hp : i.payload = some p) : refusesPlainly i.block := by
  match i, hp with
  | .unknownCommand _, _ => exact fun _ => plainly_refuse rfl rfl
  | .identify _, _ => exact .withLength (.ack fun s => (s, identifyData)) _ _
  | .status args, _ => exact .withLength (.status args) _ _
  | .restartMeasure args, _ => exact .withLength (.restart args) _ _
  | .restartFull args, _ => exact .withLength (.restart args) _ _
  | .tbConfig args, _ => exact .withLength (.tbConfig args) _ _
  | .tbStart args, _ => exact .withLength .tbStart _ _
  | .tbStop args, _ => exact .withLength .tbStop _ _
  | .tbSelect args, _ => exact .withLength (.tbSelect args) _ _
  | .auxSet args, _ => exact .withLength (.auxSet args) _ _
  | .channelSet args, _ => exact .withLength (.channelSet args) _ _
  | .channelRead args, _ => exact .withLength (.channelRead args) _ _
  | .calibrate args, _ => exact .withLength (.calibrate args) _ _
  | .tableRead args, _ => exact .withLength (.tableRead args) _ _
  | .gateWrite args, _ => exact .withLength (.gateWrite args) _ _
  | .gateCommit args, _ => exact .withLength (.gateCommit args) _ _
  | .gateEnable args, _ => exact .withLength (.gateEnable args) _ _
  | .gateStopFinish args, _ => exact .withLength (.gateStop args) _ _
  | .gateStopAbort args, _ => exact .withLength (.gateStop args) _ _
  | .gateRead args, _ => exact .withLength (.gateRead args) _ _
  | .slotRead args, _ => exact .withLength (.slotRead args) _ _
  | .slotHold args, _ => exact .withLength (.slotHold args) _ _
  | .slotRelease args, _ => exact .withLength (.slotRelease args) _ _
  | .statsClear args, _ => exact .withLength (.statsClear args) _ _
  | .streamSet args, _ => exact .withLength (.streamSet args) _ _
  | .streamClear args, _ => exact .withLength (fun _ => plainly_ack) _ _
  | .noticeMask args, _ => exact .withLength (.noticeMask args) _ _

/-! ## Payloads and rows (R173) -/

/-- A code that names no command decodes to UNKNOWN_COMMAND. -/
theorem decodeCommand_unknown {code : Byte} (h : argLength code = none) (args : List Byte) :
    decodeCommand (code :: args) = .unknownCommand (code :: args) := by
  unfold argLength at h
  unfold decodeCommand
  split_ifs at h with h0 h1 h2 h3 h5 h11 h21
  simp only [not_or] at h0 h1 h2
  simp only [h0, h1, h2, h3, h5, h11, h21, if_false]

/-- A byte is one of the codes of R173 or names no command. -/
theorem code_cases (code : Byte) :
    argLength code = none ∨ code = 0x03 ∨ code = 0x43 ∨ code = 0x01 ∨ code = 0x02 ∨ code = 0x10 ∨ code = 0x11 ∨
    code = 0x12 ∨ code = 0x13 ∨ code = 0x20 ∨ code = 0x21 ∨ code = 0x22 ∨ code = 0x30 ∨ code = 0x31 ∨ code = 0x40
    ∨ code = 0x41 ∨ code = 0x42 ∨ code = 0x44 ∨ code = 0x50 ∨ code = 0x51 ∨ code = 0x52 ∨ code = 0x53 ∨ code =
    0x60 ∨ code = 0x61 ∨ code = 0x70 := by
  revert code
  decide

/-- Every payload is the payload of the row it decodes to. -/
theorem payload_decodeCommand (p : List Byte) : (decodeCommand p).payload = some p := by
  cases p with
  | nil => rfl
  | cons code args =>
    have hrestart : (if args = [2] then Instr.restartFull args else .restartMeasure args).payload = some (0x03 :: args) := by
      split <;> rfl
    have hstop : (if args.length = 2 ∧ args.getD 1 0 = 2 then Instr.gateStopAbort args else .gateStopFinish args).payload =
        some (0x43 :: args) := by
      split <;> rfl
    rcases code_cases code with h | rfl | rfl | rfl | rfl | rfl | rfl | rfl | rfl | rfl | rfl | rfl | rfl | rfl | rfl | rfl | rfl | rfl | rfl | rfl | rfl | rfl | rfl | rfl | rfl
    · rw [decodeCommand_unknown h]
      rfl
    · exact hrestart
    · exact hstop
    all_goals rfl

/-- The number of argument bytes that a row's block checks is that of its code (R173). -/
theorem block_badLength {code : Byte} {args : List Byte} {n : Nat} (h : argLength code = some n) (hl : args.length ≠ n)
    (s : State) : (decodeCommand (code :: args)).block s = (s, Answer.refuse .length) := by
  have hrow {k : Nat} (body : State → State × Answer) (hk : some k = argLength code) :
      withLength k args body s = (s, Answer.refuse .length) := if_neg (by rw [Option.some.inj (hk.trans h)]; exact hl)
  have hrestart (hk : some 1 = argLength code) :
      (if args = [2] then Instr.restartFull args else .restartMeasure args).block s = (s, Answer.refuse .length) := by
    split <;> exact hrow _ hk
  have hstop (hk : some 2 = argLength code) :
      (if args.length = 2 ∧ args.getD 1 0 = 2 then Instr.gateStopAbort args else .gateStopFinish args).block s =
        (s, Answer.refuse .length) := by
    split <;> exact hrow _ hk
  rcases code_cases code with hn | rfl | rfl | rfl | rfl | rfl | rfl | rfl | rfl | rfl | rfl | rfl | rfl | rfl | rfl | rfl | rfl | rfl | rfl | rfl | rfl | rfl | rfl | rfl | rfl
  · exact absurd (hn.symm.trans h) (by simp)
  · exact hrestart rfl
  · exact hstop rfl
  · exact hrow (fun s => (s, Answer.ack identifyData)) rfl
  all_goals exact hrow _ rfl

/-- Settles O54: decoding undoes the payload, and the payload undoes decoding. -/
theorem payloadAndRowAgree : Obligations.PayloadAndRowAgree := by
  unfold Obligations.PayloadAndRowAgree
  refine ⟨fun i p hp hunknown hfull hmeasure habort hfinish => ?_, payload_decodeCommand⟩
  match i, hp with
  | .unknownCommand [], hp => cases hp; rfl
  | .unknownCommand (code :: args), hp => cases hp; exact decodeCommand_unknown (hunknown code args rfl) args
  | .restartFull args, hp => cases hp; rw [hfull args rfl]; rfl
  | .restartMeasure args, hp => cases hp; exact if_neg (hmeasure args rfl)
  | .gateStopAbort args, hp =>
    cases hp
    obtain ⟨g, rfl⟩ := habort args rfl
    rfl
  | .gateStopFinish args, hp =>
    cases hp
    refine if_neg fun h => ?_
    match args, h with
    | [g, b], h => exact hfinish [g, b] rfl g (by rw [show b = 2 from h.2])
  | .identify _, hp => cases hp; rfl
  | .status _, hp => cases hp; rfl
  | .tbConfig _, hp => cases hp; rfl
  | .tbStart _, hp => cases hp; rfl
  | .tbStop _, hp => cases hp; rfl
  | .tbSelect _, hp => cases hp; rfl
  | .auxSet _, hp => cases hp; rfl
  | .channelSet _, hp => cases hp; rfl
  | .channelRead _, hp => cases hp; rfl
  | .calibrate _, hp => cases hp; rfl
  | .tableRead _, hp => cases hp; rfl
  | .gateWrite _, hp => cases hp; rfl
  | .gateCommit _, hp => cases hp; rfl
  | .gateEnable _, hp => cases hp; rfl
  | .gateRead _, hp => cases hp; rfl
  | .slotRead _, hp => cases hp; rfl
  | .slotHold _, hp => cases hp; rfl
  | .slotRelease _, hp => cases hp; rfl
  | .statsClear _, hp => cases hp; rfl
  | .streamSet _, hp => cases hp; rfl
  | .streamClear _, hp => cases hp; rfl
  | .noticeMask _, hp => cases hp; rfl

/-- Settles O47: one reply for each executed command, and the refusals of the link controller itself. -/
theorem executedCommandPlacesOneReply : Obligations.ExecutedCommandPlacesOneReply := by
  unfold Obligations.ExecutedCommandPlacesOneReply
  refine ⟨fun s i p hp hex => ?_, fun s i code args n hi hlen hargs hex => ?_, fun s code args hlen hex => ?_, fun s hex => ?_⟩
  · have hcan : (s.taken p).canExecute p = true := by
      have hc := State.canExecute_of_executes hex
      unfold State.taken
      split
      · exact (s.canExecute_modLink p (fun l => { l with commandQueue := l.commandQueue.tail }) rfl rfl).trans hc
      · exact (s.canExecute_modLink p (fun l => { l with rxLine := .looking, rxGap := false }) rfl rfl).trans hc
    have hkept := block_queuesKept hp hcan
    have hplain := block_refusesPlainly hp (s.taken p)
    have he := exec_executes hp hex
    generalize i.block (s.taken p) = r at hkept hplain he
    obtain ⟨u, a⟩ := r
    obtain ⟨hnumber, hreplies, hcommands⟩ := hkept
    rw [State.taken_link_number] at hnumber
    rw [State.taken_link_replyQueue] at hreplies
    refine ⟨u, a, he.trans ?_, hcommands, hplain⟩
    rw [← hnumber, ← hreplies]
    rfl
  · have hp : i.payload = some (code :: args) := by rw [hi, payload_decodeCommand]
    rw [exec_executes hp hex, hi, block_badLength hlen hargs]
    rfl
  · rw [decodeCommand_unknown hlen]
    exact ⟨rfl, exec_executes (i := .unknownCommand (code :: args)) rfl hex⟩
  · exact exec_executes (i := .unknownCommand []) rfl hex

end Sys2Proof.Machine
end

section
/-!
The read commands: CHANNEL READ, TABLE READ, GATE READ and STATUS report their records in the layouts of R174 and R176 and
change nothing (R38, R74, R101, R169).
-/

namespace Sys2Proof.Machine

/-! ## Bytes (R172) -/

/-- Byte `j` of a number is its quotient by 256^j. -/
theorem leBytes_getElem? : ∀ k v j : Nat, (leBytes k v)[j]? = if j < k then some (BitVec.ofNat 8 (v / 256 ^ j)) else none
  | 0, _, _ => rfl
  | k + 1, v, 0 => by simp [leBytes]
  | k + 1, v, j + 1 => by
    rw [leBytes, List.getElem?_cons_succ, leBytes_getElem? k (v / 256) j, Nat.div_div_eq_div_mul, ← pow_succ']
    simp

theorem GateCopy.bytes_length (cp : GateCopy) : cp.bytes.length = 20 := by simp [GateCopy.bytes]

theorem Timebase.snapshot_length (tb : Timebase) : tb.snapshot.length = 21 := by simp [Timebase.snapshot]

theorem flatMap_leBytes_length (k : Nat) : ∀ l : List Nat, (l.flatMap (leBytes k)).length = l.length * k
  | [] => by simp
  | v :: l => by
    rw [List.flatMap_cons, List.length_append, leBytes_length, flatMap_leBytes_length k l, List.length_cons]
    ring

theorem State.channelRecord_length (s : State) (c : Chan) : (s.channelRecord c).length = 19 := by
  simp [State.channelRecord]

theorem State.tableData_length (s : State) (c : Chan) : (s.tableData c).length = 976 := by
  simp [State.tableData, Attempt.bytes, flatMap_leBytes_length, -List.length_flatMap]

theorem Descriptor.readData_length (d : Descriptor) : d.readData.length = 82 := by
  simp [Descriptor.readData, GateCopy.bytes_length]

theorem State.statusData_length (s : State) : s.statusData.length = 84 := by
  simp [State.statusData, Timebase.snapshot_length, State.chanStateBytes, StreamUnit.dropBytes, slotSetBytes, allChans, allEight,
    flatMap_leBytes_length, -List.length_flatMap]

/-! ## What a read reports is what stood before the command left its queue -/

section
variable (s : State) (p : List Byte)

theorem State.taken_channelRecord (c : Chan) : (s.taken p).channelRecord c = s.channelRecord c := by
  unfold State.channelRecord
  rw [State.taken_chan, State.taken_chanState, State.taken_aux]

theorem State.taken_tableData (c : Chan) : (s.taken p).tableData c = s.tableData c := by
  unfold State.tableData
  rw [State.taken_chan, State.taken_chanState]

theorem State.taken_statusData : (s.taken p).statusData = s.statusData := by
  have hcounters : (s.taken p).link.crcErrors = s.link.crcErrors ∧ (s.taken p).link.lengthErrors = s.link.lengthErrors
      ∧ (s.taken p).link.truncated = s.link.truncated ∧ (s.taken p).link.overruns = s.link.overruns := by
    unfold State.taken
    split <;> exact ⟨rfl, rfl, rfl, rfl⟩
  obtain ⟨hcrc, hlength, htruncated, hoverruns⟩ := hcounters
  unfold State.statusData State.chanStateBytes State.calByte State.heldSet State.waitingSet State.lostSet
  simp only [State.taken_causes, State.taken_tb, State.taken_chanState, State.taken_cal, State.taken_desc, State.taken_slot,
    State.taken_stream, State.taken_noticeQueue, hcrc, hlength, htruncated, hoverruns]

end

/-! ## The blocks -/

theorem chanByte_of_toNat {b : Byte} {c : Chan} (h : b.toNat = c.val + 1) : b = chanByte c := by
  apply BitVec.eq_of_toNat_eq
  rw [h]
  clear h
  revert c
  decide

/-- The bits of a set built slot by slot. -/
theorem foldl_slotBits (f : SlotId → Bool) (k : SlotId) : ∀ (l : List SlotId) (acc : BitVec 8),
    (l.foldl (fun acc j => if f j then acc ||| ((1 : BitVec 8) <<< j.val) else acc) acc).getLsbD k.val =
      (acc.getLsbD k.val || (decide (k ∈ l) && f k))
  | [], acc => by simp
  | j :: l, acc => by
    have hbit : ∀ j k : SlotId, ((1 : BitVec 8) <<< j.val).getLsbD k.val = decide (k = j) := by decide
    rw [List.foldl_cons, foldl_slotBits f k l]
    cases hf : f j with
    | false =>
      by_cases hj : k = j
      · simp [hj, hf]
      · simp [hj]
    | true =>
      rw [if_pos rfl, BitVec.getLsbD_or, hbit]
      by_cases hj : k = j
      · simp [hj, hf]
      · simp [hj]

theorem slotSet_bit (f : SlotId → Bool) (k : SlotId) : (slotSet f).getLsbD k.val = f k :=
  (foldl_slotBits f k allEight 0).trans (by simp [mem_allEight])

theorem instantTime_toNat (x : Coarse) : (instantTime x).toNat = x.toNat * 1024 := by
  unfold instantTime
  rw [BitVec.toNat_ofNat]
  exact Nat.mod_eq_of_lt (by omega)

/-- The data of GATE READ, field by field. -/
theorem Descriptor.readData_eq (d : Descriptor) :
    d.readData = d.staged.bytes ++ d.active.bytes ++ [d.state.code, flagByte d.commitPending, flagByte d.lastGate, 0]
      ++ leBytes 4 d.gateNumber.toNat
      ++ [flagByte d.ctx.isSome + 2 * flagByte (d.ctx.bind (fun k => k.cEnd)).isSome + 4 * flagByte d.timeoutAt.isSome]
      ++ (match d.ctx with
        | none => leBytes 14 0
        | some k => match k.openStamp, d.active.primary with
          | some st, _ => leBytes 6 st.n.toNat ++ leBytes 8 st.t.toNat
          | none, some c => leBytes 6 k.opening.counts[c].toNat ++ leBytes 8 (k.opening.instant.toNat * 1024)
          | none, none => leBytes 6 0 ++ leBytes 8 (k.opening.instant.toNat * 1024))
      ++ leBytes 8 (match d.ctx.bind (fun k => k.cEnd) with
        | none => 0
        | some x => x.toNat)
      ++ leBytes 8 (match d.timeoutAt with
        | none => 0
        | some x => x.toNat)
      ++ leBytes 2 d.noticeCount.toNat ++ [d.lastReason.code] := by
  have hmarks (b0 b1 b2 : Bool) : ((if b0 then 1 else 0) + (if b1 then 2 else 0) + (if b2 then 4 else 0) : Byte) =
      flagByte b0 + 2 * flagByte b1 + 4 * flagByte b2 := by
    revert b0 b1 b2
    decide
  have hget (o : Option Coarse) : (match o with
      | none => 0
      | some x => x.toNat) = (o.map (fun x => x.toNat)).getD 0 := by
    cases o <;> rfl
  have hopen : leBytes 6 ((d.ctx.map (fun k => (k.nOpen d.active).toNat)).getD 0)
        ++ leBytes 8 ((d.ctx.map (fun k => k.tOpen.toNat)).getD 0) =
      match d.ctx with
      | none => leBytes 14 0
      | some k => match k.openStamp, d.active.primary with
        | some st, _ => leBytes 6 st.n.toNat ++ leBytes 8 st.t.toNat
        | none, some c => leBytes 6 k.opening.counts[c].toNat ++ leBytes 8 (k.opening.instant.toNat * 1024)
        | none, none => leBytes 6 0 ++ leBytes 8 (k.opening.instant.toNat * 1024) := by
    simp only [← instantTime_toNat]
    cases d.ctx with
    | none => rfl
    | some k =>
      obtain ⟨openStamp, opening, _, _, _, _⟩ := k
      cases openStamp with
      | some st => rfl
      | none =>
        unfold GateCtx.nOpen
        cases d.active.primary <;> rfl
  rw [← hopen, hget, hget, ← hmarks]
  simp only [Descriptor.readData, List.append_assoc]

theorem statusBody_refused {b : Byte} (h : 2 ≤ b.toNat) (s : State) : statusBody [b] s = (s, Answer.invalid 1) := by
  unfold statusBody
  simp only [arg, List.getD_cons_zero, (readFlag_spec b).2 h]

theorem statusBody_ok {b : Byte} (h : b.toNat ≤ 1) (s : State) :
    statusBody [b] s = (if b = 1 then s.clearStatus else s, Answer.ack s.statusData) := by
  unfold statusBody
  simp only [arg, List.getD_cons_zero, ((readFlag_spec b).1 h).1, decide_eq_true_eq]

/-- Settles O50: the records of the four reads, field by field, with their lengths and codes. -/
theorem readsReportAndChangeNothing : Obligations.ReadsReportAndChangeNothing := by
  unfold Obligations.ReadsReportAndChangeNothing
  intro flag optChan copy snapshot answers
  have hcopy (cp : GateCopy) : cp.bytes = copy cp := by
    obtain ⟨_, primary, secondary, mode, arm, _, timeout, _⟩ := cp
    have hoptChan (c : Option Chan) : optChanByte c = optChan c := by
      cases c <;> rfl
    unfold GateCopy.bytes
    rw [hoptChan, hoptChan]
    cases mode <;> cases arm <;> cases timeout <;> rfl
  refine ⟨fun s b hex => ⟨fun hb => ?_, fun c hc => ?_⟩, fun s b hex => ⟨fun hb => ?_, fun c hc => ?_⟩,
    fun s b hex => ⟨fun hb => ?_, fun g hg => ?_⟩, ?_, fun cp tb => ⟨hcopy cp, rfl⟩, leBytes_getElem?, fun _ => rfl,
    rfl, rfl, rfl, rfl, rfl, rfl, rfl, rfl, rfl, rfl, rfl, rfl, rfl, rfl, rfl⟩
  · exact exec_body (i := .channelRead [b]) rfl rfl rfl hex (by simp [channelReadBody, arg, readChan_none hb])
  · obtain rfl := chanByte_of_toNat hc
    refine ⟨exec_body (i := .channelRead [chanByte c]) rfl rfl rfl hex ?_, s.channelRecord_length c⟩
    simp only [channelReadBody, arg, List.getD_cons_zero, readChan_chanByte, State.taken_channelRecord]
    rfl
  · exact exec_body (i := .tableRead [b]) rfl rfl rfl hex (by simp [tableReadBody, arg, readChan_none hb])
  · obtain rfl := chanByte_of_toNat hc
    refine ⟨exec_body (i := .tableRead [chanByte c]) rfl rfl rfl hex ?_, s.tableData_length c⟩
    simp only [tableReadBody, arg, List.getD_cons_zero, readChan_chanByte, State.taken_tableData]
    rfl
  · exact exec_body (i := .gateRead [b]) rfl rfl rfl hex (by simp [gateReadBody, arg, readEight_none hb])
  · obtain rfl := eightByte_of_toNat hg
    have hbody : gateReadBody [eightByte g] (s.taken [0x44, eightByte g]) =
        (s.taken [0x44, eightByte g], Answer.ack (s.desc g).readData) := by
      simp only [gateReadBody, arg, List.getD_cons_zero, readEight_eightByte, State.taken_desc]
    have hlen := (s.desc g).readData_length
    rw [Descriptor.readData_eq, hcopy, hcopy] at hbody hlen
    exact ⟨exec_body (i := .gateRead [eightByte g]) rfl rfl rfl hex hbody, hlen⟩
  · intro s b hex t
    refine ⟨fun hb => ?_, fun hb => ⟨s.statusData, s.heldSet, s.waitingSet, s.lostSet,
      fun k => ⟨slotSet_bit _ k, slotSet_bit _ k, slotSet_bit _ k⟩, ?_, s.statusData_length, ?_⟩⟩
    · exact exec_body (i := .status [b]) rfl rfl rfl hex (statusBody_refused hb t)
    · have hcauses : s.causes.byte = flag s.causes.power + 2 * flag s.causes.full + 4 * flag s.causes.brk
          + 8 * flag s.causes.measure := by
        unfold Causes.byte
        generalize s.causes.power = b0, s.causes.full = b1, s.causes.brk = b2, s.causes.measure = b3
        revert b0 b1 b2 b3
        decide
      have hcal : s.calByte = match s.cal with
          | none => 0xFF
          | some r => BitVec.ofNat 8 (r.chan.val + 1) := by
        unfold State.calByte
        cases s.cal <;> rfl
      unfold State.statusData
      rw [hcauses, hcal, StreamUnit.dropBytes_eq]
      rfl
    · have hbody := statusBody_ok hb t
      rw [show t.statusData = s.statusData from State.taken_statusData s _] at hbody
      exact exec_body (i := .status [b]) rfl rfl rfl hex hbody

end Sys2Proof.Machine
end

section
/-!
Restarts: what RESTART MEASURE and RESTART FULL leave in every block, at the end of a RESTART's ACK and at a link break (R157,
R164, R166, R167, R170).
-/

namespace Sys2Proof.Machine

section
variable (s : State)

/-- A restart in the channels, the calibration and the descriptors, and nothing else. -/
theorem State.restarted_eq (f : Chan → Channel → Channel) (k : Descriptor → Descriptor) :
    ∃ (chans : Vector Channel 4) (descs : Vector Descriptor 8),
      ((s.dropCal .restart).mapChans f).resetDescs k = { s with chans := chans, cal := none, descs := descs }
      ∧ (∀ c : Chan, chans[c] = f c (if s.calibrates c then
          { s.chan c with attempt := { (s.chan c).attempt with outcome := .restart } } else s.chan c))
      ∧ ∀ g : Desc, descs[g] = k (s.desc g) := by
  have hd := s.dropCal_eq .restart
  have hdc := s.dropCal_chan .restart
  generalize s.dropCal .restart = d at hd hdc ⊢
  have hm := d.mapChans_eq f
  have hmc := d.mapChans_chan f
  generalize d.mapChans f = m at hm hmc ⊢
  have hv := m.resetDescs_eq k
  have hvd := m.resetDescs_desc k
  generalize m.resetDescs k = v at hv hvd ⊢
  refine ⟨m.chans, v.descs, hv.trans ?_, fun c => ?_, fun g => ?_⟩
  · rw [hm, hd]
  · exact (hmc c).trans (by rw [hdc])
  · refine (hvd g).trans (congrArg k ?_)
    rw [hm, hd]
    rfl

theorem State.restartFull_restarted : s.fullRestarted s.restartFull := by
  obtain ⟨chans, descs, hu, hchans, hdescs⟩ := s.restarted_eq (fun c ch => ch.fullReset c) (fun _ => Descriptor.reset)
  have hfull : s.restartFull = { s with
      tb := Timebase.reset, aux := { role := .arm, activeHigh := true }, chans := chans, cal := none, descs := descs
      slots := Vector.replicate 8 Slot.reset, stream := StreamUnit.reset, link := s.link.fullReset } := by
    unfold State.restartFull
    rw [hu]
    rfl
  rw [hfull]
  refine ⟨rfl, fun c => ⟨?_, ?_⟩, hdescs, fun k => ?_⟩
  · refine (hchans c).trans ?_
    have hset : Settings.reset c = {
        binding := some (if c = 0 then .in1 else if c = 1 then .in2 else if c = 2 then .in3 else .in4)
        polarity := .rise, holdoff := 0, prescale := 0, skew := 0, inhibitObey := false } := by
      fin_cases c <;> rfl
    rw [← hset]
    cases s.calibrates c <;> rfl
  · refine State.online_of ?_ (State.calibrates_of_none rfl c)
    have hset : (chans[c]).set = Settings.reset c := by
      rw [hchans]
      rfl
    show parks .arm (chans[c]).set.binding = false
    rw [hset]
    fin_cases c <;> rfl
  · exact Vector.getElem_replicate ..

theorem State.restartMeasure_restarted : s.measureRestarted s.restartMeasure := by
  obtain ⟨chans, descs, hu, hchans, hdescs⟩ := s.restarted_eq (fun _ ch => ch.measureReset)
    (fun d => Descriptor.idle d.staged d.active)
  have hmeasure : s.restartMeasure = { s with
      chans := chans, cal := none, descs := descs, slots := Vector.replicate 8 Slot.reset, stream := StreamUnit.reset
      link := s.link.emptyQueues, causes := { s.causes with measure := true } } := by
    unfold State.restartMeasure
    rw [hu]
    rfl
  rw [hmeasure]
  refine ⟨rfl, fun c => ?_, hdescs, fun k => ?_⟩
  · refine (hchans c).trans ?_
    cases s.calibrates c <;> rfl
  · exact Vector.getElem_replicate ..

end

section
variable {s u : State}

/-- What a restart leaves in the blocks says nothing of the link and the reset-cause record. -/
theorem State.fullRestarted.with_link (h : s.fullRestarted u) (l : Link) (c : Causes) :
    s.fullRestarted { u with link := l, causes := c } := by
  obtain ⟨heq, hrest⟩ := h
  exact ⟨congrArg (fun v : State => { v with link := l, causes := c }) heq, hrest⟩

theorem State.restartMeasure_causes (s : State) : s.restartMeasure.causes = { s.causes with measure := true } := by
  unfold State.restartMeasure
  dsimp only [State.modLink, State.resetStore]
  rw [State.resetDescs_eq, State.mapChans_eq, State.dropCal_eq]

end

/-! ## The rows -/

/-- The end of a frame, by the frame on the line. -/
theorem transmitEnd_effect {s : State} (hc : s.lnkclk = true) :
    (s.link.tx = none → Instr.effect .transmitEnd s = s)
    ∧ ∀ f, s.link.tx = some f → Instr.effect .transmitEnd s = s.frameDone f := by
  have heffect : Instr.effect .transmitEnd s = match s.link.tx with
      | some f => if s.lnkclk then s.frameDone f else s
      | none => s := rfl
  refine ⟨fun ht => heffect.trans (by rw [ht]), fun f ht => heffect.trans (by rw [ht, hc]; rfl)⟩

/-- An event of an operating part, by what its effect makes of the state. -/
theorem State.event_to {s u : State} (hp : s.power = .ready) {f : State → State} (h : f s = u) :
    s.event f = .next u.arbitrate := (State.event_ready hp f).trans (by rw [h])

/-- Settles O53: the break restarts the part in full, once. -/
theorem linkBreakRestartsAtOnce : Obligations.LinkBreakRestartsAtOnce := by
  unfold Obligations.LinkBreakRestartsAtOnce
  refine fun s hp => ⟨fun h => ?_, fun h => ?_⟩
  · exact State.event_to hp (f := Instr.effect .linkBreak) (if_pos h)
  · refine ⟨Instr.effect .linkBreak s, State.event_ready hp (Instr.effect .linkBreak), ?_⟩
    have heffect : Instr.effect .linkBreak s =
        { s.restartFull with
          link := { s.link.fullReset with rxLine := .broken }, causes := { s.causes with brk := true } } := by
      have hl := s.restartFull_link
      refine (if_neg h).trans ?_
      generalize s.restartFull = v at hl ⊢
      rw [← hl]
      rfl
    have hfull := s.restartFull_restarted
    rw [heffect]
    generalize s.restartFull = v at hfull ⊢
    exact ⟨hfull.with_link _ _, rfl, rfl⟩

/-- Settles O52: the transmitter freed, and the two restarts with the whole state after each. -/
theorem transmitEndFreesAndRestarts : Obligations.TransmitEndFreesAndRestarts := by
  unfold Obligations.TransmitEndFreesAndRestarts
  intro s hp hc
  refine ⟨fun ht => ?_, ?_⟩
  · exact State.event_to hp (f := Instr.effect .transmitEnd) ((transmitEnd_effect hc).1 ht)
  · intro f hf free
    have hrun : exec .transmitEnd s = .next (s.frameDone f).arbitrate :=
      State.event_to hp (f := Instr.effect .transmitEnd) ((transmitEnd_effect hc).2 f hf)
    have hdone : s.frameDone f = match f.restart with
        | some kind => (s.modLink (fun l => { l with tx := none })).restartNow kind
        | none => s.modLink (fun l => { l with tx := none }) := rfl
    refine ⟨fun hr => ?_, fun hr => ⟨_, hrun, ?_⟩, fun hr => ⟨_, hrun, ?_⟩⟩
    · rw [hrun, hdone, hr]
      rfl
    · have hm := (s.modLink (fun l => { l with tx := none })).restartMeasure_restarted
      have hl := (s.modLink (fun l => { l with tx := none })).restartMeasure_link
      have hcause := (s.modLink (fun l => { l with tx := none })).restartMeasure_causes
      rw [show s.frameDone f = (s.modLink (fun l => { l with tx := none })).restartMeasure by rw [hdone, hr]; rfl]
      generalize (s.modLink (fun l => { l with tx := none })).restartMeasure = v at hm hl hcause ⊢
      exact ⟨hm, hcause, hl⟩
    · have hm := (s.modLink (fun l => { l with tx := none })).restartFull_restarted
      have hl := (s.modLink (fun l => { l with tx := none })).restartFull_link
      rw [show s.frameDone f = { (s.modLink (fun l => { l with tx := none })).restartFull with
        causes := { s.causes with full := true } } by rw [hdone, hr]; rfl]
      generalize (s.modLink (fun l => { l with tx := none })).restartFull = v at hm hl ⊢
      exact ⟨hm.with_link v.link _, rfl, hl⟩

end Sys2Proof.Machine
end

section
/-!
Readiness judged by every descriptor (R84, R85), and the two commands that may give it: AUX SET (R24, R25) and CHANNEL SET (R35,
R36, R37).
-/

namespace Sys2Proof.Machine

/-! ## A loop over the descriptors -/

/-- What a loop makes of descriptor `g` is what the turn of `g` makes of it, on a state in which it is as it was. -/
theorem State.forEight_turn {f : Desc → State → State} {s : State} {P : State → Prop} (hs : P s)
    (hP : ∀ g u, P u → P (f g u)) (hd : ∀ g u, P u → DescOnly g u (f g u)) (g : Desc) :
    ∃ u, P u ∧ u.desc g = s.desc g ∧ (s.forEight f).desc g = (f g u).desc g := by
  have skips : ∀ (l : List Desc) (u : State), P u → g ∉ l → (l.foldl (fun u g => f g u) u).desc g = u.desc g := by
    intro l
    induction l with
    | nil => exact fun _ _ _ => rfl
    | cons h l ih =>
      intro u hu hg
      obtain ⟨hne, hl⟩ := not_or.mp (mt List.mem_cons.mpr hg)
      exact (ih _ (hP h u hu) hl).trans (hd h u hu g hne)
  have go : ∀ (l : List Desc) (u : State), P u → l.Nodup → g ∈ l →
      ∃ v, P v ∧ v.desc g = u.desc g ∧ (l.foldl (fun u g => f g u) u).desc g = (f g v).desc g := by
    intro l
    induction l with
    | nil => exact fun _ _ _ hg => absurd hg List.not_mem_nil
    | cons h l ih =>
      intro u hu hn hg
      obtain ⟨hh, hl⟩ := List.nodup_cons.mp hn
      by_cases e : g = h
      · subst e
        exact ⟨u, hu, rfl, skips l _ (hP g u hu) hh⟩
      · obtain ⟨v, hv, hvd, hr⟩ := ih _ (hP h u hu) hl ((List.mem_cons.mp hg).resolve_left e)
        exact ⟨v, hv, hvd.trans (hd h u hu g e), hr⟩
  exact go allEight s hs (by decide) (mem_allEight g)

/-! ## Readiness judged (R84, R85) -/

section
variable {s s' u u' : State} {g : Desc} {x : Coarse}

/-- What judging looks at. -/
theorem State.judgesAt_congr (hs : s'.desc g = s.desc g) (htb : u'.tb = u.tb) (hst : ∀ c, u'.chanState c = u.chanState c)
    (hn : ∀ c, (u'.chan c).n = (u.chan c).n) (hd : u'.desc g = u.desc g) : s'.judgesAt u' x g ↔ s.judgesAt u x g := by
  unfold State.judgesAt
  simp only [hs, htb, hst, hd, State.armsInto_congr htb hn]

theorem State.judge_judgesAt (s : State) (g : Desc) : s.judgesAt (s.judge g) s.tb.coarse g := by
  have e := EngineOnly.judge s g
  unfold State.judgesAt
  simp only [e.tb, e.chanState, State.armsInto_congr e.tb (fun c => by rw [e.chan])]
  by_cases hw : (s.desc g).state = .waitArm
  · obtain ⟨harm, hstay⟩ := State.judge_waitArm hw
    split_ifs with h
    · exact harm h.2
    · exact hstay fun ha => h ⟨hw, ha⟩
  · rw [if_neg fun h => hw h.1]
    unfold State.judge
    rw [if_neg fun h => hw h.1]

theorem State.judgeAll_eq (s : State) : s.judgeAll = { s with descs := s.judgeAll.descs } :=
  State.forEight_keeps (P := fun u => u = { s with descs := u.descs })
    (fun g u hu => (OneDesc.judge u g).1.trans (congrArg (fun v : State => { v with descs := (u.judge g).descs }) hu)) rfl

/-- Every descriptor judges its readiness at the present count. -/
theorem State.judgeAll_judged (s : State) : s.judged s.judgeAll s.tb.coarse := by
  intro g
  obtain ⟨u, hu, hd, hr⟩ := State.forEight_turn (f := fun g u => u.judge g) (s := s) (P := EngineOnly s) (.refl s)
    (fun g u hu => hu.trans (.judge u g)) (fun g u _ => .judge u g) g
  have hall := EngineOnly.judgeAll s
  have hj := hu.trans (.judge u g)
  rw [← hu.tb]
  refine (State.judgesAt_congr hd.symm (hall.tb.trans hj.tb.symm) (fun c => (hall.chanState c).trans (hj.chanState c).symm)
    (fun c => by rw [hall.chan, hj.chan]) hr).mpr (u.judge_judgesAt g)

end

/-! ## AUX SET (R24, R25, R28) -/

theorem readAuxRole_refused {b : Byte} (h : ¬(1 ≤ b.toNat ∧ b.toNat ≤ 4)) : readAuxRole b = none := by
  revert b
  decide

theorem readAuxRole_allowed {b : Byte} (h : 1 ≤ b.toNat ∧ b.toNat ≤ 4) : (readAuxRole b).isSome = true := by
  revert b
  decide

theorem readAuxPolarity_refused {b : Byte} (h1 : b ≠ 1) (h2 : b ≠ 2) : readAuxPolarity b = none := by
  unfold readAuxPolarity
  rw [if_neg h1, if_neg h2]

section
variable {s : State}

theorem auxSetBody_invalid {a b : Byte} :
    (¬(1 ≤ a.toNat ∧ a.toNat ≤ 4) → auxSetBody [a, b] s = (s, Answer.invalid 1))
    ∧ (1 ≤ a.toNat ∧ a.toNat ≤ 4 → b ≠ 1 → b ≠ 2 → auxSetBody [a, b] s = (s, Answer.invalid 2)) := by
  refine ⟨fun h => ?_, fun h h1 h2 => ?_⟩
  · unfold auxSetBody
    simp only [arg, List.getD_cons_zero, readAuxRole_refused h]
  · obtain ⟨role, hr⟩ := Option.isSome_iff_exists.mp (readAuxRole_allowed h)
    unfold auxSetBody
    simp only [arg, List.getD_cons_zero, List.getD_cons_succ, hr, readAuxPolarity_refused h1 h2]

theorem auxSetBody_read (role : AuxRole) (high : Bool) :
    auxSetBody [role.code, auxPolarityCode high] s =
      if s.auxInUse then (s, Answer.refuse .busy)
      else if role ≠ .signal ∧ allChans.any (fun c => s.boundToAux c && s.calibrates c) = true then
        (s, Answer.refuse .busy)
      else (s.storeAux role high, Answer.ack (s.storeAux role high).auxData) := by
  unfold auxSetBody
  simp only [arg, List.getD_cons_zero, List.getD_cons_succ, readAuxRole_code, readAuxPolarity_code]

theorem State.auxInUse_iff : s.auxInUse = true ↔ ∃ g : Desc, (s.desc g).running = true
    ∧ ((s.desc g).active.arm = .aux ∨ (s.desc g).active.mode = .aux
      ∨ ∃ c ∈ (s.desc g).active.used, (s.chan c).set.binding = some .aux) := by
  unfold State.auxInUse State.boundToAux
  simp [mem_allEight, or_assoc]

theorem mem_allChans (c : Chan) : c ∈ allChans := by
  revert c
  decide

theorem State.auxCalibrates_iff : allChans.any (fun c => s.boundToAux c && s.calibrates c) = true ↔
    ∃ c : Chan, (s.chan c).set.binding = some .aux ∧ s.calibrates c = true := by
  unfold State.boundToAux
  simp [mem_allChans]

/-- A channel parks otherwise under the new role just where it is bound to AUX and one of the roles is SIGNAL. -/
theorem parks_eq_iff (old new : AuxRole) (b : Option PhysIn) :
    parks old b = parks new b ↔ ¬(b = some .aux ∧ ¬(old = .signal ↔ new = .signal)) := by
  cases b with
  | none => simp [parks]
  | some i => cases i <;> simp [parks, decide_eq_decide]

theorem State.modChan_id (s : State) (c : Chan) {f : Channel → Channel} (h : f (s.chan c) = s.chan c) : s.modChan c f = s := by
  unfold State.modChan
  rw [h]
  unfold State.chan
  rw [show s.chans.set c.val s.chans[c] c.isLt = s.chans from Vector.set_getElem_self ..]

theorem State.taken_calibrates (s : State) (p : List Byte) (c : Chan) : (s.taken p).calibrates c = s.calibrates c := by
  unfold State.calibrates
  rw [State.taken_cal]

/-- The AUX settings stored, without the judging of readiness. -/
def State.auxStored (s : State) (role : AuxRole) (activeHigh : Bool) : State :=
  State.mapChans { s with aux := { role := role, activeHigh := activeHigh } } (fun c ch =>
    if (s.chan c).set.binding = some .aux ∧ ¬(s.aux.role = .signal ↔ role = .signal) then { ch with holdoffEnd := none }
    else ch)

theorem State.storeAux_eq (s : State) (role : AuxRole) (activeHigh : Bool) :
    s.storeAux role activeHigh = (s.auxStored role activeHigh).judgeAll := by
  have hround (c : Chan) (v : State) : (if parks s.aux.role (s.chan c).set.binding = parks role (s.chan c).set.binding then v
      else v.modChan c (fun ch => { ch with holdoffEnd := none })) =
      v.modChan c (fun ch => if (s.chan c).set.binding = some .aux ∧ ¬(s.aux.role = .signal ↔ role = .signal) then
        { ch with holdoffEnd := none } else ch) := by
    simp only [parks_eq_iff]
    by_cases h : (s.chan c).set.binding = some .aux ∧ ¬(s.aux.role = .signal ↔ role = .signal)
    · rw [if_neg (not_not.mpr h)]
      simp only [if_pos h]
    · rw [if_pos h]
      exact (State.modChan_id v c (if_neg h)).symm
  unfold State.storeAux State.auxStored State.mapChans
  dsimp only
  simp only [hround]

/-- Settles O18: the refusals, and the settings stored with the readiness that follows. -/
theorem auxSetStoresItsSettings : Obligations.AuxSetStoresItsSettings := by
  unfold Obligations.AuxSetStoresItsSettings
  refine ⟨?_, ?_⟩
  · intro s a b hex t
    exact ⟨fun h => exec_body (i := .auxSet [a, b]) rfl rfl rfl hex (auxSetBody_invalid.1 h),
      fun h1 h4 hb1 hb2 => exec_body (i := .auxSet [a, b]) rfl rfl rfl hex (auxSetBody_invalid.2 ⟨h1, h4⟩ hb1 hb2)⟩
  · intro s role high args hex t gateUses calUses
    have hbody := auxSetBody_read (s := t) role high
    have huse : t.auxInUse = true ↔ gateUses := by
      rw [State.auxInUse_iff]
      simp only [t, State.taken_desc, State.taken_chan]
      rfl
    have hcal : (role ≠ .signal ∧ allChans.any (fun c => t.boundToAux c && t.calibrates c) = true) ↔ calUses := by
      rw [State.auxCalibrates_iff]
      simp only [t, State.taken_chan, State.taken_calibrates]
      rfl
    refine ⟨fun h => ?_, fun h1 h2 => ?_⟩
    · refine exec_body (i := .auxSet args) rfl rfl rfl hex (hbody.trans ?_)
      by_cases hg : gateUses
      · rw [if_pos (huse.mpr hg)]
      · rw [if_neg (mt huse.mp hg), if_pos (hcal.mpr (h.resolve_left hg))]
    · rw [if_neg (mt huse.mp h1), if_neg (mt hcal.mp h2), State.storeAux_eq] at hbody
      have hv := State.mapChans_eq { t with aux := { role := role, activeHigh := high } } (fun c ch =>
        if (t.chan c).set.binding = some .aux ∧ ¬(t.aux.role = .signal ↔ role = .signal) then { ch with holdoffEnd := none }
        else ch)
      have hc := State.mapChans_chan { t with aux := { role := role, activeHigh := high } } (fun c ch =>
        if (t.chan c).set.binding = some .aux ∧ ¬(t.aux.role = .signal ↔ role = .signal) then { ch with holdoffEnd := none }
        else ch)
      unfold State.auxStored at hbody
      generalize State.mapChans { t with aux := { role := role, activeHigh := high } } _ = v at hbody hv hc
      have hu := v.judgeAll_eq
      have hj := v.judgeAll_judged
      have he := EngineOnly.judgeAll v
      generalize v.judgeAll = u at hbody hu hj he
      have htb : v.tb = s.tb := by rw [hv]; exact State.taken_tb s _
      have haux : u.aux = { role := role, activeHigh := high } := by rw [he.aux, hv]
      have hlevels : u.levels = s.levels := by rw [he.levels, hv]; exact State.taken_levels s _
      refine ⟨u, exec_body (i := .auxSet args) rfl rfl rfl hex (hbody.trans ?_), ?_, fun c => ?_, fun g => ?_⟩
      · unfold State.auxData
        rw [haux, hlevels]
        rfl
      · rw [hv] at hu
        rw [he.chans]
        exact hu
      · rw [he.chan, hc]
        show (if (t.chan c).set.binding = some .aux ∧ ¬(t.aux.role = .signal ↔ role = .signal) then
          { t.chan c with holdoffEnd := none } else t.chan c) = _
        rw [State.taken_chan, State.taken_aux]
      · rw [← htb]
        refine (State.judgesAt_congr (s' := v) ?_ rfl (fun _ => rfl) (fun _ => rfl) rfl).mp (hj g)
        rw [hv]
        exact State.taken_desc s _ g

end

/-! ## CHANNEL SET (R35, R36, R37) -/

section
variable (b : Byte)

theorem readBinding_spec : (5 < b.toNat → readBinding b = none) ∧ (b.toNat ≤ 5 → (readBinding b).isSome = true) := by
  revert b
  decide

theorem readPolarity_spec : (¬(1 ≤ b.toNat ∧ b.toNat ≤ 3) → readPolarity b = none)
    ∧ (1 ≤ b.toNat ∧ b.toNat ≤ 3 → (readPolarity b).isSome = true) := by
  revert b
  decide

end

section
variable {s : State} {c : Chan}

theorem Settings.sameButHoldoff_iff (a b : Settings) :
    a.sameButHoldoff b = false ↔ { a with holdoff := b.holdoff } ≠ b := by
  obtain ⟨b1, p1, h1, k1, s1, i1⟩ := a
  obtain ⟨b2, p2, h2, k2, s2, i2⟩ := b
  rw [← Bool.not_eq_true, not_iff_not]
  simp [Settings.sameButHoldoff, and_assoc]

/-- The settings by the readers of their fields. -/
theorem readSettings_fields {f b p pr ob : Byte} {hold skew : List Byte} (hh : hold.length = 4) (hs : skew.length = 2) :
    readSettings ([f, b, p] ++ hold ++ [pr] ++ skew ++ [ob]) =
      match readBinding b, readPolarity p, readFlag ob with
      | none, _, _ => .error 2
      | some _, none, _ => .error 3
      | some _, some _, none => .error 11
      | some b, some p, some i =>
        .ok { binding := b, polarity := p, holdoff := BitVec.ofNat 16 (min (leValue hold) 65535)
              prescale := min pr.toNat 20, skew := BitVec.ofNat 16 (leValue skew), inhibitObey := i } := by
  match hold, skew, hh, hs with
  | [_, _, _, _], [_, _], _, _ => rfl

/-- The settings that allowed fields give, holdoff and prescale clamped. -/
theorem readSettings_ok (first : Byte) (binding : Option PhysIn) (polarity : Polarity) (holdoff : BitVec 32) (prescale : Byte)
    (skew : BitVec 16) (obey : Bool) :
    readSettings ([first, bindingCode binding, polarity.code] ++ leBytes 4 holdoff.toNat ++ [prescale]
        ++ leBytes 2 skew.toNat ++ [flagByte obey]) =
      .ok { binding := binding, polarity := polarity
            holdoff := if 65535 < holdoff.toNat then 65535 else BitVec.ofNat 16 holdoff.toNat
            prescale := if 20 < prescale.toNat then 20 else prescale.toNat
            skew := skew, inhibitObey := obey } := by
  have hh : leValue (leBytes 4 holdoff.toNat) = holdoff.toNat := leValue_leBytes holdoff.isLt
  have hs : leValue (leBytes 2 skew.toNat) = skew.toNat := leValue_leBytes skew.isLt
  have hho : BitVec.ofNat 16 (min holdoff.toNat 65535) =
      if 65535 < holdoff.toNat then 65535 else BitVec.ofNat 16 holdoff.toNat := by
    split
    next h => rw [min_eq_right (by omega)]; rfl
    next h => rw [min_eq_left (by omega)]
  have hpr : min prescale.toNat 20 = if 20 < prescale.toNat then 20 else prescale.toNat := by
    split <;> omega
  have hsk : BitVec.ofNat 16 skew.toNat = skew := by simp
  rw [readSettings_fields (leBytes_length ..) (leBytes_length ..), readBinding_code, readPolarity_code, readFlag_flagByte, hh, hs,
    hho, hpr, hsk]

/-- The first field that CHANNEL SET refuses. -/
theorem readSettings_refused (args : List Byte) :
    if 5 < (arg args 1).toNat then readSettings args = .error 2
    else if ¬(1 ≤ (arg args 2).toNat ∧ (arg args 2).toNat ≤ 3) then readSettings args = .error 3
    else if 1 < (arg args 10).toNat then readSettings args = .error 11
    else True := by
  unfold readSettings
  by_cases h : 5 < (arg args 1).toNat
  · rw [if_pos h, (readBinding_spec _).1 h]
  rw [if_neg h]
  obtain ⟨b, hb⟩ := Option.isSome_iff_exists.mp ((readBinding_spec _).2 (not_lt.mp h))
  rw [hb]
  by_cases h : ¬(1 ≤ (arg args 2).toNat ∧ (arg args 2).toNat ≤ 3)
  · rw [if_pos h, (readPolarity_spec _).1 h]
  rw [if_neg h]
  obtain ⟨p, hp⟩ := Option.isSome_iff_exists.mp ((readPolarity_spec _).2 (not_not.mp h))
  rw [hp]
  by_cases h : 1 < (arg args 10).toNat
  · rw [if_pos h, (readFlag_spec _).2 h]
  rw [if_neg h]
  trivial

theorem State.storeSettings_stores (s : State) (c : Chan) (new : Settings) :
    s.storeSettings c new =
        { s with chans := (s.storeSettings c new).chans, descs := (s.storeSettings c new).descs }
    ∧ (∀ d : Chan, (s.storeSettings c new).chan d = if d = c then
        { s.chan c with
          set := new
          holdoffEnd := if new.binding = (s.chan c).set.binding ∧ new.polarity = (s.chan c).set.polarity then
            (s.chan c).holdoffEnd else none }
        else s.chan d)
    ∧ s.judged (s.storeSettings c new) s.tb.coarse := by
  unfold State.storeSettings
  have hc := s.chan_modChan c
  generalize hf : (fun ch : Channel =>
    { ch with
      set := new
      holdoffEnd := if new.binding = ch.set.binding ∧ new.polarity = ch.set.polarity then ch.holdoffEnd else none }) = f
  have hu := (s.modChan c f).judgeAll_eq
  have hj := (s.modChan c f).judgeAll_judged
  have he := EngineOnly.judgeAll (s.modChan c f)
  refine ⟨?_, fun d => ?_, hj⟩
  · rw [he.chans]
    exact hu
  · rw [he.chan, hc, ← hf]

theorem channelSetBody_chan {args : List Byte} (h : readChan (arg args 0) = some c) :
    channelSetBody args s =
      match readSettings args with
      | .error k => (s, Answer.invalid k)
      | .ok new =>
        if (s.chanState c = .calibrating ∨ s.inUse c = true) ∧ new.sameButHoldoff (s.chan c).set = false then
          (s, Answer.refuse .busy)
        else (s.storeSettings c new, Answer.ack ((s.storeSettings c new).channelRecord c)) := by
  unfold channelSetBody
  rw [h] <;> rfl

/-- Settles O19: the settings clamped and stored, or refused whole on a busy channel, and the first bad field named. -/
theorem channelSetStoresClampedSettings : Obligations.ChannelSetStoresClampedSettings := by
  unfold Obligations.ChannelSetStoresClampedSettings
  refine ⟨?_, ?_⟩
  · intro s c binding polarity holdoff prescale skew obey args hex old new busy
    have hbody := channelSetBody_chan (s := s.taken (0x21 :: args)) (args := args) (readChan_chanByte c)
    rw [readSettings_ok, State.taken_chanState, State.taken_inUse, State.taken_chan] at hbody
    have hbusy : ((s.chanState c = .calibrating ∨ s.inUse c = true) ∧ new.sameButHoldoff old = false) ↔ busy := by
      rw [Settings.sameButHoldoff_iff, State.inUse_iff]
    refine ⟨fun h => ?_, fun h => ?_⟩
    · exact exec_body (i := .channelSet args) rfl rfl (by simp [args]) hex (hbody.trans (if_pos (hbusy.mpr h)))
    · have hstored := State.storeSettings_stores (s.taken (0x21 :: args)) c new
      have hbody := hbody.trans (if_neg (mt hbusy.mp h))
      generalize (s.taken (0x21 :: args)).storeSettings c new = u at hbody hstored
      obtain ⟨hu, hc, hj⟩ := hstored
      refine ⟨u, exec_body (i := .channelSet args) rfl rfl (by simp [args]) hex hbody, hu, fun d => ?_, fun g => ?_⟩
      · rw [hc, State.taken_chan, State.taken_chan]
      · rw [← State.taken_tb s (0x21 :: args)]
        exact (State.judgesAt_congr (State.taken_desc s _ g).symm rfl (fun _ => rfl) (fun _ => rfl) rfl).mpr (hj g)
  · intro s args hl hex answers field
    have run {a : Answer} (hb : channelSetBody args (s.taken (0x21 :: args)) = (s.taken (0x21 :: args), a)) : answers a :=
      exec_body (i := .channelSet args) rfl rfl hl hex hb
    by_cases h0 : ¬(1 ≤ field 0 ∧ field 0 ≤ 4)
    · rw [if_pos h0]
      refine run ?_
      unfold channelSetBody
      rw [show readChan (arg args 0) = none from readChan_none h0]
    rw [if_neg h0]
    obtain ⟨c, hc, -⟩ | ⟨-, hc⟩ := readChan_cases (arg args 0)
    swap
    · exact absurd hc h0
    have hbody := channelSetBody_chan (s := s.taken (0x21 :: args)) hc
    have hrefused := readSettings_refused args
    have step {p : Prop} [Decidable p] {k : Nat} {rest rest' : Prop} (h : if p then readSettings args = .error k else rest)
        (hrest : rest → rest') : if p then answers (Answer.invalid k) else rest' := by
      split_ifs with hp
      · rw [if_pos hp] at h
        rw [h] at hbody
        exact run hbody
      · rw [if_neg hp] at h
        exact hrest h
    exact step hrefused fun h => step h fun h => step h fun _ => trivial

end

end Sys2Proof.Machine
end

section
/-!
The end of a gate (R92): the record is published, the chain event handed on, a pending commit applied, and the descriptor goes on
or stops. What a gate opened on a stamp looks like (R90, R94, R108), and what each kind of record says (R105, R111 to R121).
-/

namespace Sys2Proof.Machine

/-! ## Opening and arming (R88, R90, R94) -/

/-- `b` is `a` but for what entering a state sets. -/
def Descriptor.sameBut (a b : Descriptor) : Prop :=
  b = { a with state := b.state, ctx := b.ctx, timeoutAt := b.timeoutAt, closeEvent := b.closeEvent }

theorem Descriptor.sameBut.refl (a : Descriptor) : a.sameBut a := rfl

theorem Descriptor.sameBut.trans {a b c : Descriptor} (h : a.sameBut b) (k : b.sameBut c) : a.sameBut c := by
  unfold Descriptor.sameBut at *
  rw [h] at k
  exact k

section
variable {s : State} {g : Desc} {a : Descriptor}

/-- The entry into ARMED. -/
theorem State.enterArmed_desc (h : a.sameBut (s.desc g)) : (s.enterArmed g).desc g =
    { a with state := .armed, ctx := none, timeoutAt := a.active.timeoutFrom s.tb.coarse, closeEvent := none } := by
  unfold State.enterArmed
  rw [State.desc_modDesc_self, h]
  rfl

theorem State.enterOff_desc (h : a.sameBut (s.desc g)) : (s.enterOff g).desc g =
    { a with state := .off, ctx := none, timeoutAt := none, lastGate := false, closeEvent := none } := by
  unfold State.enterOff
  rw [State.desc_modDesc_self, h]

/-- A TOTALIZE TIME gate opened. -/
theorem State.openGate_totalize (h : a.sameBut (s.desc g)) {len : Nat} (hfn : a.active.fn = .totalize)
    (hm : a.active.mode = .time len) (h1 : 1 ≤ len) (h2 : len ≤ 100000000) {m : Sample}
    (hx : (s.tb.coarse - m.instant).toNat ≤ 1) : (s.openGate g none m).desc g = s.openedAt a m len := by
  have ha : (s.desc g).active = a.active := by rw [h]
  rw [State.openGate_totalizeTime (by rw [ha]; exact hfn) (by rw [ha]; exact hm) h1 h2 m hx, h]
  rfl

/-- The flags at an opening on a stamp. -/
theorem QFlags.union_gateFlags (f : QFlags) (tb : Timebase) : f.union tb.gateFlags =
    { uncal := f.uncal, holdover := f.holdover || tb.holdover
      unsettled := f.unsettled || decide (tb.state = .relock) } := by
  simp [QFlags.union, gateFlags_eq]

theorem isSome_filter_some {α : Type} (p : α → Bool) (x : α) : ((some x).filter p).isSome = p x := by
  cases h : p x <;> simp [Option.filter, h]

/-- A FREQ, PERIOD, RATIO or INTERVAL gate opened on a stamp; INTERVAL has no gate mode TIME. -/
theorem State.openGate_stamp (h : a.sameBut (s.desc g)) (htot : a.active.fn ≠ .totalize)
    (hfn : a.active.fn.edgeSynced = true ∨ ∀ len, a.active.mode ≠ .time len) {st : Stamp} {m : Sample}
    (hm : m.instant = st.coarse) : (s.openGate g (some st) m).desc g = s.openedOn a st m s.tb.coarse := by
  unfold State.openGate
  rw [State.desc_modDesc_self, h]
  unfold State.openedOn
  dsimp only
  cases hmode : a.active.mode with
  | time len =>
    have hsync := hfn.resolve_right (fun h => h len hmode)
    simp only [hsync, hm, if_neg htot, Bool.true_and, isSome_filter_some, QFlags.union_gateFlags]
    rfl
  | _ =>
    simp only [if_neg htot, Option.filter, Option.isSome_none, Bool.and_false, QFlags.union_gateFlags]
    rfl

end

/-! ## What arming and going on leave of a descriptor -/

section
variable {s t u v : State} {g : Desc} {d : Descriptor} {e : CloseEvent}

theorem State.openGate_sameBut (s : State) (g : Desc) (st : Option Stamp) (m : Sample) :
    (s.desc g).sameBut ((s.openGate g st m).desc g) := by
  unfold State.openGate
  rw [State.desc_modDesc_self]
  rfl

theorem State.enterArmed_sameBut (s : State) (g : Desc) : (s.desc g).sameBut ((s.enterArmed g).desc g) := by
  rw [State.enterArmed_desc (.refl _)]
  rfl

theorem State.arm_sameBut (s : State) (g : Desc) (m : Sample) : (s.desc g).sameBut ((s.arm g m).desc g) := by
  unfold State.arm
  split
  · exact s.openGate_sameBut g _ m
  · exact s.enterArmed_sameBut g

theorem State.judge_sameBut (s : State) (g : Desc) : (s.desc g).sameBut ((s.judge g).desc g) := by
  unfold State.judge
  split
  · exact s.arm_sameBut g _
  · exact .refl _

theorem State.goOn_sameBut (s : State) (g : Desc) (e : CloseEvent) : (s.desc g).sameBut ((s.goOn g e).desc g) := by
  rcases s.goOn_cases g e with h | h | h <;> rw [h]
  · exact s.enterArmed_sameBut g
  · exact s.openGate_sameBut g _ _
  · exact s.openGate_sameBut g _ _

theorem State.goOn_one (s : State) (g : Desc) (e : CloseEvent) : OneDesc g s (s.goOn g e) := by
  rcases s.goOn_cases g e with h | h | h <;> rw [h] <;> exact .modDesc s g _

theorem State.enterWaitArm_one (s : State) (g : Desc) : OneDesc g s (s.enterWaitArm g) :=
  (OneDesc.modDesc s g _).trans (.judge _ g)

theorem State.afterGate_one (s : State) (g : Desc) (old : Descriptor) (e : CloseEvent) :
    OneDesc g s (s.afterGate g old e) := by
  unfold State.afterGate
  dsimp only
  refine (OneDesc.modDesc s g Descriptor.applyPending).trans ?_
  split
  · split
    · exact State.goOn_one _ g e
    · split
      · exact .modDesc _ g _
      · exact State.enterWaitArm_one _ g
  · exact .modDesc _ g _

/-! ## Chain events (R87) -/

/-- What the chain event of `g` makes of another descriptor. -/
theorem State.chainFrom_chains (s : State) (g h : Desc) :
    if (s.desc h).active.arm = .chain g ∧ (s.desc h).state = .waitArm ∧ s.tb.counting = true
        ∧ ∀ c ∈ (s.desc h).active.used, s.chanState c = .online then
      s.armsInto (s.desc h) s.tb.coarse ((s.chainFrom g).desc h)
    else (s.chainFrom g).desc h = s.desc h := by
  obtain ⟨u, hu, hd, hr⟩ := State.forEight_turn (s := s) (P := EngineOnly s)
    (f := fun h u => if (u.desc h).active.arm = .chain g then u.armEvent h u.sampleNow else u) (.refl s)
    (fun h u hu => by
      split
      · exact hu.trans (.armEvent u h _)
      · exact hu)
    (fun h u _ => by
      split
      · exact .armEvent u h _
      · exact fun _ _ => rfl) h
  rw [show (s.chainFrom g).desc h = _ from hr, hd]
  by_cases hc : (s.desc h).active.arm = .chain g
  · rw [if_pos hc]
    unfold State.armEvent
    have hready : u.ready h = s.ready h := hu.ready (by rw [hd])
    simp only [hd, hready, State.ready_iff]
    by_cases ha : (s.desc h).state = .waitArm ∧ s.tb.counting = true
        ∧ ∀ c ∈ (s.desc h).active.used, s.chanState c = .online
    · rw [if_pos ha, if_pos ⟨hc, ha⟩]
      have harm := u.arm_armsInto h
      rw [State.armsInto_congr hu.tb (fun c => by rw [hu.chan]), hu.tb, hd] at harm
      exact harm
    · rw [if_neg ha, if_neg (fun k => ha k.2), hd]
  · rw [if_neg hc, if_neg (fun k => hc k.1), hd]

/-- Its own chain event may at most arm a descriptor. -/
theorem State.chainFrom_sameBut (s : State) (g h : Desc) : (s.desc h).sameBut ((s.chainFrom g).desc h) := by
  refine State.forEight_keeps (P := fun u => (s.desc h).sameBut (u.desc h)) (fun k u hu => ?_) (.refl _)
  split
  · refine hu.trans ?_
    unfold State.armEvent
    split
    · by_cases hk : h = k
      · subst hk
        exact u.arm_sameBut h _
      · rw [DescOnly.arm u k _ h hk]
        exact .refl _
    · exact .refl _
  · exact hu

/-! ## Steps 4 and 5 of a close event (R81, R93) -/

/-- The descriptor once its gate has ended, a pending commit being applied. -/
def Descriptor.afterGate (d : Descriptor) : Descriptor :=
  { d with
    active := if d.commitPending then d.staged else d.active, commitPending := false
    gateNumber := d.gateNumber + 1, ctx := none, timeoutAt := none, closeEvent := none }

theorem GateCopy.continues_iff (old new : GateCopy) : old.continues new = true ↔
    new.fn = old.fn ∧ new.primary = old.primary ∧ new.secondary = old.secondary ∧ new.mode.kind = old.mode.kind := by
  simp only [GateCopy.continues, Bool.and_eq_true, decide_eq_true_eq, and_assoc, @eq_comm _ old.fn,
    @eq_comm _ old.primary, @eq_comm _ old.secondary, @eq_comm _ old.mode.kind]

theorem State.armsInto_waitArm (s : State) (d : Descriptor) (x : Coarse) (e : Descriptor) :
    s.armsInto { d with state := .waitArm } x e ↔ s.armsInto d x e := Iff.rfl

/-- `d` but for its gate number and what entering a state sets. -/
def Descriptor.published (d : Descriptor) : Descriptor := { d with gateNumber := d.gateNumber + 1, closeEvent := none }

theorem Descriptor.sameBut.applyPending (h : d.published.sameBut d') : d.afterGate.sameBut d'.applyPending := by
  rw [Descriptor.applyPending_eq, h]
  rfl

/-- `State.goesOn` by the copy that the gate's end leaves. -/
theorem State.goesOn_iff (s u : State) (g : Desc) (d : Descriptor) (again : Descriptor → Descriptor → Prop) :
    s.goesOn u g d again ↔
      if d.active.continuous = true ∧ d.lastGate = false then
        if d.active.continues d.afterGate.active = true then again d.afterGate (u.desc g)
        else if d.afterGate.active.fn = .none then u.desc g = { d.afterGate with state := .off, lastGate := false }
        else (s.armsAtOnce d.afterGate.active → s.armsInto d.afterGate u.tb.coarse (u.desc g))
          ∧ (¬s.armsAtOnce d.afterGate.active → u.desc g = { d.afterGate with state := .waitArm })
      else u.desc g = { d.afterGate with state := .off, lastGate := false } := by
  simp only [GateCopy.continues_iff]
  exact Iff.rfl

/-- A commit applied, the descriptor goes on or stops. -/
theorem State.afterGate_goesOn (h : d.published.sameBut (s.desc g)) {again : Descriptor → Descriptor → Prop}
    (hagain : ∀ v, OneDesc g s v → d.afterGate.sameBut (v.desc g) → d.afterGate.active.fn = d.active.fn →
      again d.afterGate ((v.goOn g e).desc g)) :
    s.goesOn (s.afterGate g d e) g d again := by
  have hone := OneDesc.modDesc s g Descriptor.applyPending
  have hd : d.afterGate.sameBut ((s.modDesc g Descriptor.applyPending).desc g) := by
    rw [State.desc_modDesc_self]
    exact h.applyPending
  have htb : (s.afterGate g d e).tb = s.tb := (s.afterGate_one g d e).engine.tb
  rw [State.goesOn_iff, htb]
  unfold State.afterGate
  generalize s.modDesc g Descriptor.applyPending = v at hone hd
  have hact : (v.desc g).active = d.afterGate.active := by rw [hd]
  have hv := hone.engine
  dsimp only
  rw [hact]
  by_cases hc : d.active.continuous = true ∧ d.lastGate = false
  · have hb : (d.active.continuous && !d.lastGate) = true := by simp [hc]
    rw [if_pos hc, if_pos hb]
    by_cases hk : d.active.continues d.afterGate.active = true
    · rw [if_pos hk, if_pos hk]
      exact hagain v hone hd (GateCopy.continues_eq hk).1
    · rw [if_neg hk, if_neg hk]
      by_cases hn : d.afterGate.active.fn = .none
      · rw [if_pos hn, if_pos hn]
        exact State.enterOff_desc hd
      · rw [if_neg hn, if_neg hn]
        have hj := v.judge_modDesc g
          (f := fun d => { d with state := .waitArm, ctx := none, timeoutAt := none, closeEvent := none }) rfl
        have hw : ({ v.desc g with state := .waitArm, ctx := none, timeoutAt := none, closeEvent := none } : Descriptor) =
            { d.afterGate with state := .waitArm } := by
          rw [hd]
          rfl
        rw [hw, State.armsAtOnce_congr hv.tb hv.chanState, State.armsInto_congr hv.tb (fun c => by rw [hv.chan]), hv.tb] at hj
        exact hj
  · have hb : ¬(d.active.continuous && !d.lastGate) = true := by simpa using hc
    rw [if_neg hc, if_neg hb]
    exact State.enterOff_desc hd

/-- The gate number stays from the publish on. -/
theorem State.afterGate_gateNumber (s : State) (g : Desc) (old : Descriptor) (e : CloseEvent) :
    ((s.afterGate g old e).desc g).gateNumber = (s.desc g).gateNumber := by
  have hp : ((s.modDesc g Descriptor.applyPending).desc g).gateNumber = (s.desc g).gateNumber := by
    rw [State.desc_modDesc_self, Descriptor.applyPending_eq]
  have keeps {a b : Descriptor} (h : a.sameBut b) : b.gateNumber = a.gateNumber := by rw [h]
  unfold State.afterGate
  dsimp only
  rw [← hp]
  generalize s.modDesc g Descriptor.applyPending = v
  split
  · split
    · exact keeps (v.goOn_sameBut g e)
    · split
      · rw [State.enterOff_desc (.refl _)]
      · refine (keeps (State.judge_sameBut _ g)).trans ?_
        rw [State.desc_modDesc_self]
  · rw [State.enterOff_desc (.refl _)]

/-! ## A close event as a whole (R92) -/

theorem State.armEvent_one (s : State) (g : Desc) (m : Sample) : OneDesc g s (s.armEvent g m) := by
  unfold State.armEvent
  split
  · exact .arm s g m
  · exact .refl g s

/-- A chain event changes descriptors alone. -/
theorem State.chainFrom_eq (s : State) (g : Desc) : s.chainFrom g = { s with descs := (s.chainFrom g).descs } := by
  refine State.forEight_keeps (P := fun u => u = { s with descs := u.descs }) (fun k u hu => ?_) rfl
  split
  · exact (u.armEvent_one k _).1.trans
      (congrArg (fun v : State => { v with descs := (u.armEvent k u.sampleNow).descs }) hu)
  · exact hu

theorem State.publish_descs (s : State) (k : SlotId) (r : Record) : (s.publish k r).descs = s.descs := by
  unfold State.publish
  split <;> rfl

/-- What a publish leaves in the slots. -/
theorem State.publish_slot (s : State) (k j : SlotId) (r : Record) : (s.publish k r).slot j =
    if j = k then
      if (s.slot k).held then
        { s.slot k with waiting := some r, lost := (s.slot k).lost || (s.slot k).waiting.isSome }
      else
        { s.slot k with published := some r, publishCount := (s.slot k).publishCount + 1
                        stats := (s.slot k).stats.take r }
    else s.slot j := by
  by_cases h : (s.slot k).held = true
  · rw [State.publish_held h, State.slot_modSlot, if_pos h]
  · rw [State.publish_unheld (by simpa using h), State.present_slot, if_neg h]

theorem State.publish_link (s : State) (k : SlotId) (r : Record) :
    (s.publish k r).link = (if (s.slot k).held then s else s.post (.result k)).link := by
  by_cases h : (s.slot k).held = true
  · rw [State.publish_held h, if_pos h]
    rfl
  · rw [State.publish_unheld (by simpa using h), State.present_link, if_neg h]

/-- A publish looks at the slots, the link, and the slot and gate number of its descriptor. -/
theorem State.publishes_congr {r : Record} (hslots : t.slots = s.slots) (hlink : t.link = s.link)
    (hk : (t.desc g).active.slot = (s.desc g).active.slot) (hn : (t.desc g).gateNumber = (s.desc g).gateNumber) :
    t.publishes u g r ↔ s.publishes u g r := by
  have hslot (k : SlotId) : t.slot k = s.slot k := by
    unfold State.slot
    rw [hslots]
  have hpost (k : SlotId) : (if (s.slot k).held then t else t.post (.result k)).link =
      (if (s.slot k).held then s else s.post (.result k)).link := by
    split
    · exact hlink
    · exact State.post_link_congr hlink _
  unfold State.publishes State.stores
  simp only [hk, hn, hslot, hpost]

theorem State.conclude_eq {k : GateCtx} (hk : (s.desc g).ctx = some k) : s.conclude g e =
    (((s.modDesc g Descriptor.published).publish (s.desc g).active.slot (formRecord g (s.desc g) k e)).chainFrom
      g).afterGate g (s.desc g) e := by
  unfold State.conclude
  dsimp only
  rw [hk]
  rfl

/-- Steps 1 to 5 of a close event. -/
theorem State.conclude_concludes (s : State) (g : Desc) (e : CloseEvent) {k : GateCtx} (hk : (s.desc g).ctx = some k)
    {again : Descriptor → Descriptor → Prop}
    (hagain : ∀ v, EngineOnly s v → (s.desc g).afterGate.sameBut (v.desc g) →
      (s.desc g).afterGate.active.fn = (s.desc g).active.fn → again (s.desc g).afterGate ((v.goOn g e).desc g)) :
    s.engineKept (s.conclude g e) ∧ s.publishes (s.conclude g e) g (formRecord g (s.desc g) k e)
      ∧ s.chains (s.conclude g e) g ∧ s.goesOn (s.conclude g e) g (s.desc g) again := by
  have hpub : EngineOnly s ((s.modDesc g Descriptor.published).publish (s.desc g).active.slot
      (formRecord g (s.desc g) k e)) := (EngineOnly.modDesc s g _).trans (.publish _ _ _)
  have hdescs := State.publish_descs (s.modDesc g Descriptor.published) (s.desc g).active.slot
    (formRecord g (s.desc g) k e)
  have hslot := fun j => State.publish_slot (s.modDesc g Descriptor.published) (s.desc g).active.slot j
    (formRecord g (s.desc g) k e)
  have hlink := State.publish_link (s.modDesc g Descriptor.published) (s.desc g).active.slot
    (formRecord g (s.desc g) k e)
  rw [State.conclude_eq hk]
  generalize (s.modDesc g Descriptor.published).publish (s.desc g).active.slot
    (formRecord g (s.desc g) k e) = p at hpub hdescs hslot hlink
  have hdesc (h : Desc) : p.desc h = (s.modDesc g Descriptor.published).desc h := by
    unfold State.desc
    rw [hdescs]
  have hchain := p.chainFrom_eq g
  have hchains := fun h => p.chainFrom_chains g h
  have hown := p.chainFrom_sameBut g g
  have hc := hpub.trans (.chainFrom p g)
  rw [hdesc, State.desc_modDesc_self] at hown
  generalize p.chainFrom g = v at hchain hchains hown hc
  have hone := v.afterGate_one g (s.desc g) e
  have hend := hc.trans hone.engine
  have hgoes : v.goesOn (v.afterGate g (s.desc g) e) g (s.desc g) again :=
    State.afterGate_goesOn hown (fun w hw hd hfn => hagain w (hc.trans hw.engine) hd hfn)
  have hnumber := v.afterGate_gateNumber g (s.desc g) e
  generalize v.afterGate g (s.desc g) e = w at hone hgoes hend hnumber
  have hslots (j : SlotId) : w.slot j = p.slot j := by
    unfold State.slot
    rw [hone.1, hchain]
  refine ⟨hend.eq, ⟨⟨?_, fun j hj => ?_, ?_⟩, ?_⟩, fun h hne => ?_, ?_⟩
  · rw [hnumber, hown]
    rfl
  · rw [hslots, hslot, if_neg hj]
    rfl
  · have hself := (hslots _).trans ((hslot (s.desc g).active.slot).trans (if_pos rfl))
    by_cases hh : (s.slot (s.desc g).active.slot).held = true
    · rw [if_pos hh]
      exact hself.trans (if_pos hh)
    · rw [if_neg hh]
      exact hself.trans (if_neg hh)
  · rw [show w.link = p.link by rw [hone.1, hchain], hlink]
    by_cases hh : (s.slot (s.desc g).active.slot).held = true
    · rw [if_pos hh]
      exact (congrArg State.link (if_pos hh)).trans rfl
    · rw [if_neg hh]
      exact (congrArg State.link (if_neg hh)).trans (State.post_link_congr rfl _)
  · have hk := hchains h
    rw [hdesc, DescOnly.modDesc s g _ h hne, ← hone.2 h hne, hpub.tb] at hk
    simp only [hpub.chanState, State.armsInto_congr hpub.tb (fun c => by rw [hpub.chan])] at hk
    rw [hend.tb]
    exact hk
  · rw [State.goesOn_iff] at hgoes ⊢
    simp only [State.armsAtOnce_congr hc.tb hc.chanState, State.armsInto_congr hc.tb (fun c => by rw [hc.chan])] at hgoes
    exact hgoes

end

end Sys2Proof.Machine
end

section
/-!
What each kind of record says (R105, R111 to R121), and the forming of a record that waited for its count (R92).
-/

namespace Sys2Proof.Machine

section
variable {g : Desc} {d : Descriptor} {cp : GateCopy} {k : GateCtx} {e : CloseEvent} {opened st : Stamp}

/-! ## Records (R105, R111, R113 to R121) -/

theorem gateValue_freq (hfn : cp.fn = .freq) (ho : k.openStamp = some opened) (hs : e.stamp = some st) :
    gateValue cp k e = freqValue (st.n - opened.n) (st.t - opened.t) := by
  simp only [gateValue, CloseEvent.nClose, CloseEvent.tClose, GateCtx.nOpen, GateCtx.tOpen, hfn, ho, hs]

theorem gateValue_period (hfn : cp.fn = .period) (ho : k.openStamp = some opened) (hs : e.stamp = some st) :
    gateValue cp k e = periodValue (st.n - opened.n) (st.t - opened.t) := by
  simp only [gateValue, CloseEvent.nClose, CloseEvent.tClose, GateCtx.nOpen, GateCtx.tOpen, hfn, ho, hs]

theorem gateValue_ratio (hfn : cp.fn = .ratio) (ho : k.openStamp = some opened) (hs : e.stamp = some st) :
    gateValue cp k e = ratioValue (st.n - opened.n) (secondaryDelta cp k e) := by
  simp only [gateValue, CloseEvent.nClose, GateCtx.nOpen, hfn, ho, hs]

theorem gateValue_interval (hfn : cp.fn = .interval) (ho : k.openStamp = some opened) (hs : e.stamp = some st) :
    gateValue cp k e = intervalValue (st.t - opened.t) := by
  simp only [gateValue, CloseEvent.tClose, GateCtx.tOpen, hfn, ho, hs]

/-- The record of a gate that opened and closed on stamps. -/
theorem formRecord_stamps (ho : k.openStamp = some opened) (hs : e.stamp = some st) (hc : e.completion ≠ .noClose) :
    formRecord g d k e = {
      desc := g, gateNumber := d.gateNumber + 1, fn := d.active.fn, completion := e.completion
      flags := k.flags.union st.flags, overrange := (gateValue d.active k e).2, tOpen := opened.t, tClose := st.t
      nOpen := opened.n, nClose := st.n
      secondaryDelta := if d.active.fn = .ratio then some (secondaryDelta d.active k e) else none
      value := some (gateValue d.active k e).1 } := by
  simp [formRecord, recordFlags, CloseEvent.nClose, CloseEvent.tClose, GateCtx.nOpen, GateCtx.tOpen, ho, hs, hc]

/-- The record of a TOTALIZE gate. -/
theorem formRecord_totalize {c : Chan} (hfn : d.active.fn = .totalize) (hp : d.active.primary = some c)
    (ho : k.openStamp = none) (hs : e.stamp = none) (hc : e.completion ≠ .noClose) :
    formRecord g d k e = {
      desc := g, gateNumber := d.gateNumber + 1, fn := .totalize, completion := e.completion
      flags := k.flags, overrange := false
      tOpen := instantTime k.opening.instant, tClose := instantTime e.sample.instant
      nOpen := k.opening.counts[c], nClose := e.sample.counts[c], secondaryDelta := none
      value := some ((e.sample.counts[c] - k.opening.counts[c]).toNat : Int) } := by
  simp [formRecord, gateValue, recordFlags, CloseEvent.nClose, CloseEvent.tClose, GateCtx.nOpen, GateCtx.tOpen,
    Sample.count, hfn, hp, ho, hs, hc]

/-- The record of a gate that its timeout ended without a close. -/
theorem formRecord_noClose {c : Chan} (hp : d.active.primary = some c) (ho : k.openStamp = some opened)
    (hs : e.stamp = none) (hc : e.completion = .noClose) :
    formRecord g d k e = {
      desc := g, gateNumber := d.gateNumber + 1, fn := d.active.fn, completion := .noClose
      flags := k.flags, overrange := false, tOpen := opened.t, tClose := instantTime e.sample.instant
      nOpen := opened.n
      nClose := if d.active.fn = .interval then e.sample.count d.active.secondary else e.sample.counts[c]
      secondaryDelta := if d.active.fn = .ratio then some (secondaryDelta d.active k e) else none, value := none } := by
  simp only [formRecord, recordFlags, CloseEvent.nClose, CloseEvent.tClose, GateCtx.nOpen, GateCtx.tOpen, ho, hs, hc,
    ne_eq, not_true_eq_false, decide_false, Bool.false_and, Bool.false_eq_true, if_false]
  by_cases hi : d.active.fn = .interval <;> simp [hi, hp, Sample.count]

/-! ## Where a descriptor goes on (R93, R112, R118) -/

variable {s t u : State}

theorem State.goOn_noClose (hfn : (s.desc g).active.fn ≠ .totalize) (hc : e.completion = .noClose) :
    s.goOn g e = s.enterArmed g := by
  unfold State.goOn
  cases hf : (s.desc g).active.fn with
  | totalize => exact absurd hf hfn
  | none => rfl
  | interval => rfl
  | freq => exact if_pos hc
  | period => exact if_pos hc
  | ratio => exact if_pos hc

theorem State.goOn_interval (hfn : (s.desc g).active.fn = .interval) : s.goOn g e = s.enterArmed g := by
  unfold State.goOn
  rw [hfn]

theorem State.goOn_synced (hfn : (s.desc g).active.fn.edgeSynced = true) (hc : e.completion ≠ .noClose) :
    s.goOn g e = s.openGate g e.stamp e.sample := by
  unfold State.goOn
  rcases (Fn.edgeSynced_iff _).mp hfn with h | h | h <;> rw [h] <;> exact if_neg hc

theorem State.goOn_totalizeTime {len : Nat} (hfn : (s.desc g).active.fn = .totalize)
    (hm : (s.desc g).active.mode = .time len) : s.goOn g e = s.openGate g none e.sample := by
  unfold State.goOn
  rw [hfn, hm]

theorem State.goOn_totalizeAux (hfn : (s.desc g).active.fn = .totalize) (hm : (s.desc g).active.mode.kind ≠ 1) :
    s.goOn g e = s.enterArmed g := by
  unfold State.goOn
  rw [hfn]
  cases hmode : (s.desc g).active.mode with
  | time len => exact absurd (GateMode.kind_eq_one_iff.mpr ⟨len, hmode⟩) hm
  | count _ => rfl
  | aux => rfl
  | none => rfl

/-! ## The forming of a record (R92) -/

theorem State.formation_eq (he : (s.desc g).closeEvent = some e) :
    s.formation g = (s.desc g).deferred.foldl (fun v p => v.offer g p.1 p.2)
      ((s.modDesc g (fun d => { d with deferred := [] })).conclude g e) := by
  unfold State.formation
  rw [he]

/-- The record that waits is formed as record `r`. -/
theorem State.conclude_forms (hk : (s.desc g).ctx = some k) {r : Record} (hr : formRecord g (s.desc g) k e = r)
    {again : Descriptor → Descriptor → Prop}
    (hagain : ∀ (v : State) (a : Descriptor), v.tb = s.tb → a.sameBut (v.desc g) →
      a.active.fn = (s.desc g).active.fn → again a ((v.goOn g e).desc g)) :
    let u := (s.modDesc g (fun d => { d with deferred := [] })).conclude g e
    s.publishes u g r ∧ s.chains u g ∧ s.goesOn u g { s.desc g with deferred := [] } again := by
  intro u
  have hd : (s.modDesc g (fun d => { d with deferred := [] })).desc g = { s.desc g with deferred := [] } :=
    State.desc_modDesc_self ..
  have hother : ∀ h, h ≠ g → (s.modDesc g (fun d => { d with deferred := [] })).desc h = s.desc h :=
    DescOnly.modDesc s g _
  obtain ⟨-, hpub, hchain, hgoes⟩ := State.conclude_concludes
    (s.modDesc g (fun d => { d with deferred := [] })) g e (k := k) (by rw [hd]; exact hk) (again := again)
    (fun v hv hsame hfn => hagain v _ hv.tb hsame (hfn.trans (by rw [hd])))
  rw [State.publishes_congr (t := s.modDesc g (fun d => { d with deferred := [] })) (s := s) rfl rfl (by rw [hd])
    (by rw [hd]), hd] at hpub
  rw [hd] at hgoes
  refine ⟨hr ▸ hpub, fun h hne => ?_, hgoes⟩
  have hc := hchain h hne
  rw [hother h hne] at hc
  exact hc

/-- The record that waits is formed. -/
theorem State.conclude_formsRecord {ev : CloseEvent} (he : (s.desc g).closeEvent = some ev) :
    s.formsRecord ((s.modDesc g (fun d => { d with deferred := [] })).conclude g ev) g := by
  intro k e c he' hk hp now d closing delta armed formed
  obtain rfl : e = ev := Option.some.inj (he'.symm.trans he)
  have hnow : now = s.tb.coarse := congrArg Timebase.coarse
    ((EngineOnly.modDesc s g (fun d => { d with deferred := [] })).trans (.conclude _ g e)).tb
  have harmed (v : State) (a : Descriptor) (htb : v.tb = s.tb) (ha : a.sameBut (v.desc g)) :
      armed a ((v.enterArmed g).desc g) := by
    rw [State.enterArmed_desc ha, htb, ← hnow]
  refine ⟨fun hfn ho hs hc => ?_, fun opened st hfn ho hs hc hx => ?_, fun opened htot hne ho hs hc => ?_⟩
  · refine State.conclude_forms hk (formRecord_totalize hfn hp ho hs hc) (fun v a htb ha hafn => ?_)
    have hvfn : (v.desc g).active.fn = .totalize := by
      rw [ha]
      exact hafn.trans hfn
    have hmode : (v.desc g).active.mode = a.active.mode := by rw [ha]
    refine ⟨fun hm => ?_, fun len hm h1 h2 hl => ?_⟩
    · rw [State.goOn_totalizeAux hvfn (by rw [hmode]; exact hm)]
      exact harmed v a htb ha
    · rw [State.goOn_totalizeTime hvfn (by rw [hmode, hm])]
      rw [State.openGate_totalize ha (hafn.trans hfn) hm h1 h2 (by rw [htb, ← hnow]; exact hl)]
      unfold State.openedAt
      rw [htb]
  · have hv : gateValue (s.desc g).active k e = ratioValue (st.n - opened.n) delta := gateValue_ratio hfn ho hs
    have hr := formRecord_stamps (g := g) (d := s.desc g) ho hs hc
    rw [hv, hfn, if_pos rfl] at hr
    refine State.conclude_forms hk hr (fun v a htb ha hafn => ?_)
    have hsync : a.active.fn.edgeSynced = true := by
      rw [hafn, hfn]
      rfl
    have hvsync : (v.desc g).active.fn.edgeSynced = true := by
      rw [ha]
      exact hsync
    rw [State.goOn_synced hvsync hc, hs, State.openGate_stamp ha (Fn.ne_of_edgeSynced hsync).1 (.inl hsync) hx, htb, ← hnow]
    unfold State.openedOn
    rw [htb]
  · refine State.conclude_forms hk (formRecord_noClose hp ho hs hc) (fun v a htb ha hafn => ?_)
    rw [State.goOn_noClose (by rw [ha]; exact fun h => htot (hafn.symm.trans h)) hc]
    exact harmed v a htb ha

/-- The count at which an expiry happens: the present one where the counter has come to the instant. -/
def State.reachedCount (s : State) (x : Coarse) : Coarse := if (s.tb.coarse - x).toNat < 2 ^ 53 then s.tb.coarse else x

/-- The expiry of a wait whose instant the counter reaches: it expires with the counter there. -/
theorem State.expiry_at {w : Wait} {x : Coarse} (hw : s.instantOf w = some x) (hs : s.tb.state = .run ∨ s.tb.state = .relock)
    (h : s.reaches x) : s.expiry w = ({ s with tb := s.tb.movedTo (s.reachedCount x) } : State).expire w x := by
  rw [State.expiry_reached hw (Timebase.counting_of_run hs) h]
  congr 1
  unfold State.reachedCount
  split
  · exact (State.atCount_self s).symm
  · rfl

/-! The counter's moving alone changes nothing of what the end of a gate says. -/

theorem State.publishes_movedTo (s : State) (x : Coarse) (g : Desc) {r : Record} :
    ({ s with tb := s.tb.movedTo x } : State).publishes u g r ↔ s.publishes u g r :=
  State.publishes_congr rfl rfl rfl rfl

theorem State.chains_movedTo (s : State) (x : Coarse) (g : Desc) :
    ({ s with tb := s.tb.movedTo x } : State).chains u g ↔ s.chains u g := Iff.rfl

theorem State.goesOn_movedTo (s : State) (x : Coarse) (g : Desc) {again : Descriptor → Descriptor → Prop} :
    ({ s with tb := s.tb.movedTo x } : State).goesOn u g d again ↔ s.goesOn u g d again := Iff.rfl

theorem State.formsRecord_movedTo (s : State) (x : Coarse) (g : Desc) :
    ({ s with tb := s.tb.movedTo x } : State).formsRecord u g ↔ s.formsRecord u g := by
  unfold State.formsRecord
  simp only [State.publishes_movedTo, State.chains_movedTo, State.goesOn_movedTo]
  exact Iff.rfl

/-- Settles O31: the record that waits is formed at the count that the counter reaches. -/
theorem totalizeRecordIsFormed : Obligations.TotalizeRecordIsFormed := by
  unfold Obligations.TotalizeRecordIsFormed
  intro s g k e c hp hs he hk hprimary hr x now
  have hw : s.instantOf (.record g) = some x := by
    show (s.desc g).closeEvent.map _ = _
    rw [he]
    rfl
  have hx := State.expiry_at hw hs hr
  have ht : (({ s with tb := s.tb.movedTo now } : State).desc g).closeEvent = some e := he
  refine ⟨_, State.event_to hp (f := Instr.effect (.recordFormation g)) (hx.trans (State.formation_eq ht)),
    ((EngineOnly.modDesc _ g _).trans (.conclude _ g e)).eq, ?_⟩
  exact (State.formsRecord_movedTo s now g).mp (State.conclude_formsRecord ht)

end

end Sys2Proof.Machine
end

section
/-!
What a descriptor does with a stamp (R82, R89, R90, R91, R105, R108 to R110, R116): it opens a gate, becomes the last primary
stamp, closes the gate in progress, waits behind a close event, or is ignored.
-/

namespace Sys2Proof.Machine

section
variable {s : State} {g : Desc} {st opened : Stamp} {m : Sample} {k : GateCtx} {e : CloseEvent}

/-! ## Taking a stamp, by the state of the descriptor -/

theorem GateCopy.mem_used {cp : GateCopy} {c : Chan} :
    c ∈ cp.used ↔ cp.fn ≠ .none ∧ (cp.primary = some c ∨ cp.secondary = some c) := by
  unfold GateCopy.used
  by_cases h : cp.fn = .none <;> simp [h]

/-- With no record waiting a stamp of a used channel is judged at once. -/
theorem State.offer_stamp (hc : (s.desc g).closeEvent = none) (hu : st.chan ∈ (s.desc g).active.used) :
    s.offer g (.stamp st) m = s.takeStamp g st m := by
  have ht : (s.desc g).active.takes (.stamp st) = true := by simpa [GateCopy.takes] using hu
  unfold State.offer
  rw [if_pos ht, if_neg (by simp [hc])]
  rfl

/-- Behind a close event it waits. -/
theorem State.offer_stamp_waits (hc : (s.desc g).closeEvent ≠ none) (hu : st.chan ∈ (s.desc g).active.used) :
    s.offer g (.stamp st) m = s.modDesc g (fun d => { d with deferred := d.deferred ++ [(.stamp st, m)] }) := by
  have ht : (s.desc g).active.takes (.stamp st) = true := by simpa [GateCopy.takes] using hu
  unfold State.offer
  rw [if_pos ht, if_pos (Option.isSome_iff_ne_none.mpr hc)]

theorem State.offer_stamp_unused (hu : st.chan ∉ (s.desc g).active.used) : s.offer g (.stamp st) m = s := by
  have ht : (s.desc g).active.takes (.stamp st) = false := by simpa [GateCopy.takes] using hu
  unfold State.offer
  rw [ht]
  rfl

theorem State.takeStamp_idle (h : (s.desc g).state = .off ∨ (s.desc g).state = .waitArm) : s.takeStamp g st m = s := by
  unfold State.takeStamp
  dsimp only
  rcases h with h | h <;> rw [h]

theorem State.takeStamp_armed (h : (s.desc g).state = .armed) : s.takeStamp g st m =
    if (decide ((s.desc g).active.primary = some st.chan)
      && ((s.desc g).active.fn.edgeSynced || decide ((s.desc g).active.fn = .interval))) = true then
      s.openGate g (some st) m
    else s := by
  unfold State.takeStamp
  dsimp only
  rw [h]

theorem State.takeStamp_inGate (h : (s.desc g).state = .gateOpen ∨ (s.desc g).state = .closing)
    (hk : (s.desc g).ctx = some k) : s.takeStamp g st m =
      if ((s.desc g).active.fn.edgeSynced && decide ((s.desc g).active.primary = some st.chan)
          && closesGate (s.desc g) k st) = true then
        s.closeGate g { completion := k.completion, stamp := some st, sample := m }
      else if (s.desc g).active.fn = .interval ∧ (s.desc g).active.secondary = some st.chan then
        s.closeGate g { completion := .normal, stamp := some st, sample := m }
      else if decide ((s.desc g).active.primary = some st.chan) = true then s.keepLast g st m
      else s := by
  unfold State.takeStamp
  rcases h with h | h <;> simp only [h, hk]

/-- A stamp of another channel than the primary is ignored but by an INTERVAL gate in progress. -/
theorem State.takeStamp_notPrimary (hp : (s.desc g).active.primary ≠ some st.chan)
    (h : (s.desc g).state = .armed ∨ (s.desc g).active.fn ≠ .interval) : s.takeStamp g st m = s := by
  cases hst : (s.desc g).state with
  | off => exact State.takeStamp_idle (.inl hst)
  | waitArm => exact State.takeStamp_idle (.inr hst)
  | armed => simp [State.takeStamp_armed hst, hp]
  | gateOpen =>
    have hfn := h.resolve_left (by simp [hst])
    cases hk : (s.desc g).ctx with
    | none => simp [State.takeStamp, hst, hk]
    | some k => simp [State.takeStamp_inGate (.inl hst) hk, hp, hfn]
  | closing =>
    have hfn := h.resolve_left (by simp [hst])
    cases hk : (s.desc g).ctx with
    | none => simp [State.takeStamp, hst, hk]
    | some k => simp [State.takeStamp_inGate (.inr hst) hk, hp, hfn]

/-! ## When a primary stamp closes its gate (R109, R110) -/

theorem closesGate_closing {d : Descriptor} (h : d.state = .closing) : closesGate d k st = true := by
  unfold closesGate
  rw [h]

theorem closesGate_open_iff {d : Descriptor} (h : d.state = .gateOpen) (ho : k.openStamp = some opened) :
    closesGate d k st = true ↔
      (∃ len x, d.active.mode = .time len ∧ k.cEnd = some x ∧ (st.coarse - x).toNat < 2 ^ 53)
      ∨ ∃ len, d.active.mode = .count len ∧ (k.endReached = true ∨ len ≤ (st.n - opened.n).toNat) := by
  have hn : k.nOpen d.active = opened.n := by simp [GateCtx.nOpen, ho]
  unfold closesGate
  rw [h]
  cases hm : d.active.mode with
  | time len => cases hx : k.cEnd <;> simp [atOrAfter]
  | count len => simp [hn]
  | aux => simp
  | none => simp

/-! ## Opening on a stamp, and keeping the last one (R82, R90, R105) -/

/-- Settles O32: a stamp in ARMED, in OPEN, and where it is ignored or waits. -/
theorem primaryStampOpensTheGate : Obligations.PrimaryStampOpensTheGate := by
  unfold Obligations.PrimaryStampOpensTheGate
  refine ⟨fun s g st m hst hc hp hm hfn htot hlen => ?_, ?_, fun s g st m => ⟨State.offer_stamp_unused, fun hc h => ?_, fun hc hp h => ?_, State.offer_stamp_waits⟩⟩
  · have hopens : (decide ((s.desc g).active.primary = some st.chan)
        && ((s.desc g).active.fn.edgeSynced || decide ((s.desc g).active.fn = .interval))) = true := by
      cases hf : (s.desc g).active.fn <;> simp_all [Fn.edgeSynced]
    rw [State.offer_stamp hc (GateCopy.mem_used.mpr ⟨hfn, .inl hp⟩), State.takeStamp_armed hst, if_pos hopens]
    refine congrArg (fun d => s.modDesc g (fun _ => d)) ?_
    cases hmode : (s.desc g).active.mode with
    | time len =>
      obtain ⟨h1, h2⟩ := hlen len hmode
      have hahead := not_atOrAfter_gateEnd (x := s.tb.coarse) (y := s.tb.coarse) h1 h2 (by simp)
      simp only [hm, if_neg htot, Option.filter, hahead, QFlags.union_gateFlags]
      simp [gateCycles]
    | _ =>
      simp only [if_neg htot, Option.filter, QFlags.union_gateFlags]
      simp [startTimeout_eq, GateCopy.timeoutFrom]
  · intro s g st m k opened hst hc hk hfn hp d hcase
    have hno : ¬((s.desc g).active.fn.edgeSynced && decide ((s.desc g).active.primary = some st.chan)
        && closesGate (s.desc g) k st) = true := by
      rcases hcase with h | ⟨h, -⟩ | ⟨-, ho, h⟩
      · simp [show (s.desc g).active.fn = .totalize from h, Fn.edgeSynced]
      · simp [show (s.desc g).active.fn = .interval from h, Fn.edgeSynced]
      · have : ¬closesGate (s.desc g) k st = true := by
          rw [closesGate_open_iff hst ho]
          rcases h with ⟨len, x, hm, hx, hlt⟩ | ⟨len, hm, he, hlt⟩
          · rintro (⟨l, y, -, hy, hle⟩ | ⟨l, hl, -⟩)
            · cases hx.symm.trans hy
              exact hlt hle
            · exact absurd (hm.symm.trans hl) (by simp)
          · rintro (⟨l, y, hl, -⟩ | ⟨l, hl, hle⟩)
            · exact absurd (hm.symm.trans hl) (by simp)
            · cases hm.symm.trans hl
              rcases hle with hle | hle
              · simp [he] at hle
              · omega
        simp [this]
    have hint : ¬((s.desc g).active.fn = .interval ∧ (s.desc g).active.secondary = some st.chan) := by
      rintro ⟨hi, hs⟩
      rcases hcase with h | ⟨-, h⟩ | ⟨h, -⟩
      · exact absurd (h.symm.trans hi) (by decide)
      · exact h hs
      · exact h hi
    rw [State.offer_stamp hc (GateCopy.mem_used.mpr ⟨hfn, .inl hp⟩), State.takeStamp_inGate (.inl hst) hk, if_neg hno,
      if_neg hint, if_pos (by simpa using hp)]
    refine congrArg (fun d => s.modDesc g (fun _ => d)) ?_
    rw [hk]
    rfl
  · by_cases hu : st.chan ∈ (s.desc g).active.used
    · rw [State.offer_stamp hc hu, State.takeStamp_idle h]
    · exact State.offer_stamp_unused hu
  · by_cases hu : st.chan ∈ (s.desc g).active.used
    · rw [State.offer_stamp hc hu, State.takeStamp_notPrimary hp h]
    · exact State.offer_stamp_unused hu

/-! ## Closing stamps (R91, R92, R109, R110, R116) -/

/-- A close event of a FREQ, PERIOD or INTERVAL gate with a value concludes at once. -/
theorem State.closeGate_concludes (htot : (s.desc g).active.fn ≠ .totalize) (hr : (s.desc g).active.fn ≠ .ratio)
    (hc : e.completion ≠ .noClose) : s.closeGate g e = s.conclude g e := by
  have hw : ¬s.awaitsCount (s.desc g) e = true := by simp [State.awaitsCount, htot, hr, hc]
  unfold State.closeGate
  rw [if_neg hw]

/-- A close event whose sample is of the present count waits for the next tick. -/
theorem State.closeGate_awaits
    (hw : (s.desc g).active.fn = .totalize ∨ e.completion = .noClose ∨ (s.desc g).active.fn = .ratio)
    (hx : atOrAfter s.tb.coarse (e.sample.instant + 1) = false) :
    s.closeGate g e = s.modDesc g (fun d => { d with closeEvent := some e }) := by
  have ha : s.awaitsCount (s.desc g) e = true := by
    unfold State.awaitsCount
    rw [hx]
    simpa [or_assoc] using hw
  unfold State.closeGate
  rw [if_pos ha]

theorem GateCtx.completion_ne (k : GateCtx) : k.completion ≠ .noClose := by
  unfold GateCtx.completion
  split <;> decide

/-- A gate of FREQ, PERIOD or RATIO, once concluded on a stamp, opens again on it. -/
theorem State.goOn_opens {v : State} {a : Descriptor} (htb : v.tb = s.tb) (ha : a.sameBut (v.desc g))
    (hsync : a.active.fn.edgeSynced = true) (hs : e.stamp = some st) (hc : e.completion ≠ .noClose)
    (hx : e.sample.instant = st.coarse) : (v.goOn g e).desc g = s.openedOn a st e.sample s.tb.coarse := by
  have hvsync : (v.desc g).active.fn.edgeSynced = true := by
    rw [ha]
    exact hsync
  rw [State.goOn_synced hvsync hc, hs, State.openGate_stamp ha (Fn.ne_of_edgeSynced hsync).1 (.inl hsync) hx, htb]
  unfold State.openedOn
  rw [htb]

/-- Settles O33: by the function of the gate. -/
theorem closingStampPublishesAndReopens : Obligations.ClosingStampPublishesAndReopens := by
  unfold Obligations.ClosingStampPublishesAndReopens
  intro s g st m k opened hc hk ho hx hm d u closes completion published
  have closing (hcl : closes) (hsync : d.active.fn.edgeSynced = true) :
      u = s.closeGate g { completion := k.completion, stamp := some st, sample := m } := by
    obtain ⟨hp, hst⟩ := hcl
    have hcloses : closesGate d k st = true := by
      rcases hst with hst | ⟨hst, h⟩
      · exact closesGate_closing hst
      · exact (closesGate_open_iff hst ho).mpr h
    have hne : d.active.fn ≠ .none := by
      intro h
      simp [h, Fn.edgeSynced] at hsync
    refine (State.offer_stamp hc (GateCopy.mem_used.mpr ⟨hne, .inl hp⟩)).trans
      ((State.takeStamp_inGate (hst.elim .inr (fun h => .inl h.1)) hk).trans (if_pos ?_))
    have hp' : decide ((s.desc g).active.primary = some st.chan) = true := decide_eq_true hp
    rw [hp', show (s.desc g).active.fn.edgeSynced = true from hsync, show closesGate (s.desc g) k st = true from hcloses]
    rfl
  have synced (hcl : closes) (hsync : d.active.fn.edgeSynced = true) (hr : d.active.fn ≠ .ratio) {v : Int × Bool}
      (hv : gateValue d.active k { completion := k.completion, stamp := some st, sample := m } = v) :
      published completion v (fun a b => b = s.openedOn a st m s.tb.coarse) := by
    have hu := (closing hcl hsync).trans
      (State.closeGate_concludes (Fn.ne_of_edgeSynced hsync).1 hr k.completion_ne)
    have hrec := formRecord_stamps (g := g) (d := d) (e := { completion := k.completion, stamp := some st, sample := m })
      ho rfl k.completion_ne
    rw [hv, if_neg hr] at hrec
    obtain ⟨h1, h2, h3, h4⟩ := State.conclude_concludes s g { completion := k.completion, stamp := some st, sample := m }
      hk (again := fun a b => b = s.openedOn a st m s.tb.coarse) (fun v hv hsame hfn =>
        State.goOn_opens hv.tb hsame (by rw [hfn]; exact hsync) rfl k.completion_ne (hm.trans hx.symm))
    rw [show formRecord g (s.desc g) k _ = _ from hrec] at h2
    rw [← hu] at h1 h2 h3 h4
    exact ⟨h1, h2, h3, h4⟩
  refine ⟨fun hcl hfn => ?_, fun hcl hfn => ?_, fun hfn hst hsec => ?_, fun hcl hfn => ?_⟩
  · exact synced hcl (by rw [hfn]; rfl) (by rw [hfn]; decide) (gateValue_freq hfn ho rfl)
  · exact synced hcl (by rw [hfn]; rfl) (by rw [hfn]; decide) (gateValue_period hfn ho rfl)
  · have hfn' : (s.desc g).active.fn = .interval := hfn
    have hu : u = s.conclude g { completion := .normal, stamp := some st, sample := m } := by
      refine (State.offer_stamp hc (GateCopy.mem_used.mpr ⟨by rw [hfn']; decide, .inr hsec⟩)).trans
        ((State.takeStamp_inGate (.inl hst) hk).trans ?_)
      rw [if_neg (by simp [hfn', Fn.edgeSynced]), if_pos ⟨hfn, hsec⟩]
      exact State.closeGate_concludes (by rw [hfn']; decide) (by rw [hfn']; decide) (by simp)
    have hrec := formRecord_stamps (g := g) (d := d) (e := { completion := .normal, stamp := some st, sample := m })
      ho rfl (by simp)
    rw [gateValue_interval hfn ho rfl, if_neg (by rw [hfn]; decide)] at hrec
    obtain ⟨h1, h2, h3, h4⟩ := State.conclude_concludes s g { completion := .normal, stamp := some st, sample := m }
      hk (again := fun a b => b = { a with state := .armed, timeoutAt := a.active.timeoutFrom s.tb.coarse })
      (fun v hv hsame hafn => by
        rw [State.goOn_interval (by rw [hsame]; exact hafn.trans hfn), State.enterArmed_desc hsame, hv.tb]
        rfl)
    rw [show formRecord g (s.desc g) k _ = _ from hrec] at h2
    rw [← hu] at h1 h2 h3 h4
    exact ⟨h1, h2, h3, h4⟩
  · exact (closing hcl (by rw [hfn]; rfl)).trans
      (State.closeGate_awaits (.inr (.inr hfn)) (by rw [hm]; exact not_atOrAfter_succ _))

end

end Sys2Proof.Machine
end

section
/-!
The expiries of a gate: the nominal end (R91, R118) and the timeout (R95 to R97).
-/

namespace Sys2Proof.Machine

section
variable {s t : State} {g : Desc} {d : Descriptor} {st opened : Stamp} {m : Sample} {k : GateCtx} {e : CloseEvent} {x : Coarse}

/-! ## A close event whose tick has come already (R92) -/

theorem State.modDesc_modDesc (s : State) (g : Desc) (f h : Descriptor → Descriptor) :
    (s.modDesc g f).modDesc g h = s.modDesc g (fun d => h (f d)) := by
  have hd : (s.modDesc g f).modDesc g h =
      { s with descs := (s.modDesc g f).descs.set g.val (h ((s.modDesc g f).desc g)) g.isLt } := rfl
  rw [hd, State.desc_modDesc_self]
  simp [State.modDesc]

/-- What waits at a descriptor is of no moment to the steps of a close event. -/
theorem State.conclude_modDesc (hk : (s.desc g).ctx = some k) (hd : (s.desc g).deferred = []) (e e' : CloseEvent) :
    (s.modDesc g (fun d => { d with closeEvent := some e', deferred := [] })).conclude g e = s.conclude g e := by
  have hf : s.modDesc g (fun d => Descriptor.published { d with closeEvent := some e', deferred := [] }) =
      s.modDesc g Descriptor.published := by
    refine congrArg (fun d => s.modDesc g (fun _ => d)) ?_
    rw [← hd]
    rfl
  have hself := s.desc_modDesc_self g (fun d => { d with closeEvent := some e', deferred := [] })
  rw [State.conclude_eq hk, State.conclude_eq (k := k) (by rw [hself]; exact hk), State.modDesc_modDesc, hf, hself]
  have hr : formRecord g { s.desc g with closeEvent := some e', deferred := [] } k e = formRecord g (s.desc g) k e := rfl
  rw [hr]
  generalize formRecord g (s.desc g) k e = r
  dsimp only
  generalize ((s.modDesc g Descriptor.published).publish (s.desc g).active.slot r).chainFrom g = v
  rfl

theorem atOrAfter_succ {c x : Coarse} (h : (c - x).toNat < 2 ^ 53) (hne : c ≠ x) : (c - (x + 1)).toNat < 2 ^ 53 := by
  bv_omega

/-- A close event whose tick has come concludes at once. -/
theorem State.closeGate_ticked (hx : atOrAfter s.tb.coarse (e.sample.instant + 1) = true) :
    s.closeGate g e = s.conclude g e := by
  unfold State.closeGate State.awaitsCount
  rw [hx, Bool.not_true, Bool.and_false]
  rfl

/-- A close event whose record could be formed already acts as the forming of its record does. -/
theorem State.closeGate_late (hp : s.power = .ready) (hs : s.tb.state = .run ∨ s.tb.state = .relock)
    (hx : (s.tb.coarse - (e.sample.instant + 1)).toNat < 2 ^ 53) (hk : (s.desc g).ctx = some k)
    (hdef : (s.desc g).deferred = []) :
    exec (.recordFormation g) (s.modDesc g (fun d => { d with closeEvent := some e })) =
      .next (s.closeGate g e).arbitrate := by
  rw [State.closeGate_ticked (decide_eq_true hx), ← State.conclude_modDesc hk hdef e e]
  refine State.event_to (s := s.modDesc g (fun d => { d with closeEvent := some e })) hp
    (f := Instr.effect (.recordFormation g)) ?_
  have hce : ((s.modDesc g (fun d => { d with closeEvent := some e })).desc g).closeEvent = some e := by
    rw [State.desc_modDesc_self]
  have hw : (s.modDesc g (fun d => { d with closeEvent := some e })).instantOf (.record g) = some (e.sample.instant + 1) := by
    show Option.map _ ((s.modDesc g _).desc g).closeEvent = _
    rw [hce]
    rfl
  have hself : (s.modDesc g (fun d => { d with closeEvent := some e })).reachedCount (e.sample.instant + 1) =
      s.tb.coarse := if_pos hx
  have := State.expiry_at hw hs (.inl hx)
  rw [hself, show (s.modDesc g (fun d => { d with closeEvent := some e })).tb.movedTo s.tb.coarse = s.tb from
    Timebase.movedTo_self s.tb] at this
  refine this.trans ((State.formation_eq hce).trans ?_)
  rw [State.desc_modDesc_self, hdef, State.modDesc_modDesc]
  rfl

/-! ## The nominal end (R91, R118) -/

theorem State.instantOf_nominalEnd (ho : (s.desc g).state = .gateOpen) (hc : (s.desc g).closeEvent = none)
    (hk : (s.desc g).ctx = some k) (hx : k.cEnd = some x) : s.instantOf (.nominalEnd g) = some x := by
  show (if (s.desc g).state = .gateOpen ∧ (s.desc g).closeEvent = none then _ else none) = _
  rw [if_pos ⟨ho, hc⟩, hk]
  exact hx

theorem State.instantOf_timeout (hc : (s.desc g).closeEvent = none) (hx : (s.desc g).timeoutAt = some x) :
    s.instantOf (.timeout g) = some x := by
  show (if (s.desc g).closeEvent = none then _ else none) = _
  rw [if_pos hc]
  exact hx

/-- At an expiry the counter stands at the instant or behind it. -/
theorem State.reachedCount_sub (s : State) (x : Coarse) : (s.reachedCount x - x).toNat < 2 ^ 53 := by
  unfold State.reachedCount
  split
  next h => exact h
  next => simp

/-- A close event sampled at the instant of an expiry: its record waits where the counter stands there, and is formed at
once where the counter has passed it. -/
theorem State.closeGate_expiry (hp : s.power = .ready) (hs : s.tb.state = .run ∨ s.tb.state = .relock)
    (hk : (s.desc g).ctx = some k) (hx : (s.tb.coarse - e.sample.instant).toNat < 2 ^ 53)
    (hw : (s.desc g).active.fn = .totalize ∨ e.completion = .noClose ∨ (s.desc g).active.fn = .ratio) :
    (s.tb.coarse = e.sample.instant → s.closeGate g e = s.modDesc g (fun d => { d with closeEvent := some e }))
    ∧ (s.tb.coarse ≠ e.sample.instant → (s.desc g).deferred = [] →
        exec (.recordFormation g) (s.modDesc g (fun d => { d with closeEvent := some e })) =
          .next (s.closeGate g e).arbitrate) :=
  ⟨fun h => State.closeGate_awaits hw (by rw [h]; exact not_atOrAfter_succ _),
    fun h hdef => State.closeGate_late hp hs (atOrAfter_succ hx h) hk hdef⟩

/-- Settles O29: the close of an edge-synchronized gate waits for its stamp, that of a TOTALIZE gate is sampled. -/
theorem nominalEndClosesOrSamples : Obligations.NominalEndClosesOrSamples := by
  unfold Obligations.NominalEndClosesOrSamples
  intro s g k x hp hs ho hc hk hx hr reached d
  have hrun : exec (.gateNominalEnd g) s = .next (({ s with tb := reached } : State).nominalEnd g x).arbitrate :=
    State.event_to hp (f := Instr.effect (.gateNominalEnd g))
      (State.expiry_at (State.instantOf_nominalEnd ho hc hk hx) hs hr)
  have hbehind : (reached.coarse - x).toNat < 2 ^ 53 := s.reachedCount_sub x
  have hchan : ∀ c, ({ s with tb := reached } : State).chan c = s.chan c := fun _ => rfl
  have hdesc : ∀ h, ({ s with tb := reached } : State).desc h = s.desc h := fun _ => rfl
  have hts : ({ s with tb := reached } : State).tb.state = .run ∨ ({ s with tb := reached } : State).tb.state = .relock := hs
  have htb : ({ s with tb := reached } : State).tb = reached := rfl
  have hstate : ∀ f, ({ s with tb := reached } : State).modDesc g f =
      { s with tb := reached, descs := (({ s with tb := reached } : State).modDesc g f).descs } := fun _ => rfl
  have hpower : ({ s with tb := reached } : State).power = .ready := hp
  have hidle : ∃ ds, ({ s with tb := reached } : State) = { s with tb := reached, descs := ds } := ⟨_, rfl⟩
  generalize ({ s with tb := reached } : State) = t at hrun hchan hdesc hts htb hstate hpower hidle
  by_cases hfn : d.active.fn = .totalize
  · have hn : t.nominalEnd g x = t.closeGate g { completion := .normal, stamp := none, sample := t.sampleAt x } := by
      unfold State.nominalEnd
      rw [hdesc, show (s.desc g).active.fn = .totalize from hfn, if_neg (by decide), if_pos rfl]
    obtain ⟨hnow, hlate⟩ := State.closeGate_expiry (s := t) (g := g)
      (e := { completion := .normal, stamp := none, sample := t.sampleAt x }) hpower hts
      (by rw [hdesc]; exact hk) (by rw [htb]; exact hbehind) (.inl (by rw [hdesc]; exact hfn))
    rw [htb, hdesc] at hlate
    rw [htb] at hnow
    rw [hn] at hrun
    refine ⟨_, fun h => ?_, fun _ hne hdef => hrun.trans (hlate hne hdef).symm, hstate _, fun h hne => ?_, fun h => ?_,
      fun _ => ⟨t.sampleAt x, rfl, fun c => ?_, ?_⟩⟩
    · rw [hrun, hnow (h.resolve_left (not_not.mpr hfn))]
    · exact (DescOnly.modDesc t g _ h hne).trans (hdesc h)
    · rw [hfn] at h
      simp at h
    · rw [State.sampleAt_counts, hchan]
    · rw [State.desc_modDesc_self, hdesc]
  · by_cases hsync : d.active.fn.edgeSynced = true
    · have hn : t.nominalEnd g x = t.modDesc g (fun d =>
          { d with state := .closing, timeoutAt := d.active.startTimeout t.tb.coarse }) := by
        unfold State.nominalEnd
        rw [hdesc, if_pos hsync]
      refine ⟨_, fun _ => hrun.trans (by rw [hn]), fun h => absurd h hfn, hstate _, fun h hne => ?_, fun _ => ?_,
        fun h => absurd h hfn⟩
      · exact (DescOnly.modDesc t g _ h hne).trans (hdesc h)
      · rw [State.desc_modDesc_self, hdesc, htb]
        rfl
    · have hn : t.nominalEnd g x = t := by
        unfold State.nominalEnd
        rw [hdesc, if_neg hsync, if_neg hfn]
      obtain ⟨ds, hds⟩ := hidle
      exact ⟨t, fun _ => hrun.trans (by rw [hn]), fun h => absurd h hfn, by rw [hds], fun h _ => hdesc h,
        fun h => absurd ((Fn.edgeSynced_iff _).mpr h) hsync, fun h => absurd h hfn⟩

/-! ## The timeout (R95 to R97) -/

theorem State.postGate_desc (s : State) (g : Desc) (r : GateReason) : (s.postGate g r).desc g =
    { s.desc g with noticeCount := (s.desc g).noticeCount + 1, lastReason := r } := by
  simp [State.postGate]

theorem State.postGate_desc_other (s : State) {g h : Desc} (r : GateReason) (hne : h ≠ g) :
    (s.postGate g r).desc h = s.desc h :=
  DescOnly.modDesc s g (fun d => { d with noticeCount := d.noticeCount + 1, lastReason := r }) h hne

/-- The close event of a timeout without a last primary stamp is sampled at the expiry. -/
theorem State.timeoutClose_sampled (h : d.active.fn = .totalize ∨ d.active.fn = .interval
      ∨ ((d.active.fn = .freq ∨ d.active.fn = .period ∨ d.active.fn = .ratio) ∧ k.last = none)) :
    s.timeoutClose d k x = { completion := if d.active.fn = .totalize then .short else .noClose
                             stamp := none, sample := s.sampleAt x } := by
  unfold State.timeoutClose
  rcases h with h | h | ⟨h | h | h, hl⟩ <;> simp [h] <;> simp [hl]

/-- With one it is a SHORT close on that stamp. -/
theorem State.timeoutClose_last (h : d.active.fn = .freq ∨ d.active.fn = .period ∨ d.active.fn = .ratio)
    (hl : k.last = some (st, m)) :
    s.timeoutClose d k x = { completion := .short, stamp := some st, sample := m } := by
  unfold State.timeoutClose
  rcases h with h | h | h <;> simp only [h, hl]

theorem State.timeout_inGate (h : (s.desc g).state = .gateOpen ∨ (s.desc g).state = .closing)
    (hk : (s.desc g).ctx = some k) : s.timeout g x = s.closeGate g (s.timeoutClose (s.desc g) k x) := by
  unfold State.timeout
  rcases h with h | h <;> simp only [h, hk]

/-- The timeout of a descriptor in ARMED. -/
theorem State.armedTimeout_effect (s : State) (g : Desc) :
    let d := s.desc g
    let u := s.armedTimeout g
    (∀ h : Desc, h ≠ g → u.desc h = s.desc h)
    ∧ u = { s with descs := u.descs, link := (s.post (.gate g)).link }
    ∧ (¬s.armsAtOnce d.active →
        u.desc g = { d with state := .waitArm, timeoutAt := none, noticeCount := d.noticeCount + 1
                            lastReason := .noSignal })
    ∧ (s.armsAtOnce d.active →
        s.armsInto { d with noticeCount := d.noticeCount + 1, lastReason := .noSignal } s.tb.coarse (u.desc g)) := by
  intro d u
  have hu : u = ((s.modDesc g (fun d => { d with state := .waitArm, timeoutAt := none })).postGate g .noSignal).judge g := rfl
  have hv := (s.modDesc g (fun d => { d with state := .waitArm, timeoutAt := none })).postGate_desc g .noSignal
  have hother : ∀ h, h ≠ g → ((s.modDesc g (fun d => { d with state := .waitArm, timeoutAt := none })).postGate g
      .noSignal).desc h = s.desc h := fun h hne =>
    (State.postGate_desc_other _ .noSignal hne).trans (DescOnly.modDesc s g _ h hne)
  have he : EngineOnly s ((s.modDesc g (fun d => { d with state := .waitArm, timeoutAt := none })).postGate g .noSignal) :=
    (EngineOnly.modDesc s g _).trans (.postGate _ g _)
  have hfull : (s.modDesc g (fun d => { d with state := .waitArm, timeoutAt := none })).postGate g .noSignal =
      { s with
        descs := ((s.modDesc g (fun d => { d with state := .waitArm, timeoutAt := none })).postGate g .noSignal).descs
        link := (s.post (.gate g)).link } := rfl
  rw [State.desc_modDesc_self] at hv
  generalize (s.modDesc g (fun d => { d with state := .waitArm, timeoutAt := none })).postGate g .noSignal = v at *
  have hone := OneDesc.judge v g
  obtain ⟨harm, hstay⟩ := State.judge_waitArm (s := v) (g := g) (by rw [hv])
  rw [hv, State.armsAtOnce_congr he.tb he.chanState] at harm hstay
  rw [State.armsInto_congr he.tb (fun c => by rw [he.chan]), he.tb] at harm
  rw [hu]
  exact ⟨fun h hne => (hone.2 h hne).trans (hother h hne),
    hone.1.trans (congrArg (fun w : State => { w with descs := (v.judge g).descs }) hfull), hstay, harm⟩

/-- Settles O30: in ARMED, with nothing to close on, and with a last primary stamp. -/
theorem timeoutsPostOrTakeACloseEvent : Obligations.TimeoutsPostOrTakeACloseEvent := by
  unfold Obligations.TimeoutsPostOrTakeACloseEvent
  refine ⟨?_, ?_⟩
  · intro s g x hp hs hst hc hx hr now d
    have hrun : exec (.gateTimeout g) s = .next (({ s with tb := s.tb.movedTo now } : State).timeout g x).arbitrate :=
      State.event_to hp (f := Instr.effect (.gateTimeout g)) (State.expiry_at (State.instantOf_timeout hc hx) hs hr)
    have htime : ({ s with tb := s.tb.movedTo now } : State).timeout g x =
        ({ s with tb := s.tb.movedTo now } : State).armedTimeout g := by
      unfold State.timeout
      rw [show ({ s with tb := s.tb.movedTo now } : State).desc g = s.desc g from rfl, hst]
    obtain ⟨hother, hu, hstay, harm⟩ := ({ s with tb := s.tb.movedTo now } : State).armedTimeout_effect g
    rw [htime] at hrun
    exact ⟨_, hrun, hother, hu.trans (congrArg (fun l => ({ s with
      tb := s.tb.movedTo now, descs := _, link := l } : State)) (State.post_link_congr rfl _)), hstay, harm⟩
  · intro s g k x hp hs hst hc hk hx hr now d synced
    have hrun : exec (.gateTimeout g) s = .next (({ s with tb := s.tb.movedTo now } : State).closeGate g
        (({ s with tb := s.tb.movedTo now } : State).timeoutClose d k x)).arbitrate :=
      State.event_to hp (f := Instr.effect (.gateTimeout g)) ((State.expiry_at (State.instantOf_timeout hc hx) hs hr).trans
        (State.timeout_inGate (s := { s with tb := s.tb.movedTo now }) hst hk))
    have hbehind : (now - x).toNat < 2 ^ 53 := s.reachedCount_sub x
    refine ⟨fun h => ?_, fun opened st m hsync ho hl hm hr => ?_, fun st m hfn hl hm => ?_⟩
    · rw [State.timeoutClose_sampled h] at hrun
      have hkind : d.active.fn = .totalize ∨ (if d.active.fn = .totalize then Completion.short else .noClose) = .noClose
          ∨ d.active.fn = .ratio := by
        by_cases hfn : d.active.fn = .totalize
        · exact .inl hfn
        · exact .inr (.inl (if_neg hfn))
      obtain ⟨hnow, hlate⟩ := State.closeGate_expiry (s := { s with tb := s.tb.movedTo now }) (g := g)
        (e := { completion := if d.active.fn = .totalize then .short else .noClose
                stamp := none, sample := ({ s with tb := s.tb.movedTo now } : State).sampleAt x }) hp hs hk hbehind hkind
      refine ⟨_, fun h => hrun.trans (by rw [hnow h]), fun hne hdef => hrun.trans (hlate hne hdef).symm, rfl,
        fun h hne => DescOnly.modDesc _ g _ h hne, ({ s with tb := s.tb.movedTo now } : State).sampleAt x, rfl,
        fun c => State.sampleAt_counts _ x c, State.desc_modDesc_self ..⟩
    · intro delta v
      have hsync' : d.active.fn.edgeSynced = true := (Fn.edgeSynced_iff _).mpr hsync
      have hclose : ({ s with tb := s.tb.movedTo now } : State).closeGate g
            { completion := .short, stamp := some st, sample := m } =
          ({ s with tb := s.tb.movedTo now } : State).conclude g { completion := .short, stamp := some st, sample := m } := by
        by_cases hfn : d.active.fn = .ratio
        · exact State.closeGate_ticked (decide_eq_true (by rw [hm]; exact hr hfn))
        · exact State.closeGate_concludes (Fn.ne_of_edgeSynced hsync').1 hfn (by simp)
      rw [State.timeoutClose_last hsync hl, hclose] at hrun
      have hv : gateValue d.active k { completion := .short, stamp := some st, sample := m } = v := by
        rcases hsync with h | h | h
        · exact (gateValue_freq h ho rfl).trans (if_pos h).symm
        · refine (gateValue_period h ho rfl).trans ?_
          simp [v, h]
        · refine (gateValue_ratio h ho rfl).trans ?_
          simp [v, h, delta, secondaryDelta]
      have hrec := formRecord_stamps (g := g) (d := d) (e := { completion := .short, stamp := some st, sample := m }) ho rfl
        (by simp)
      rw [hv] at hrec
      obtain ⟨h1, h2, h3, h4⟩ := State.conclude_concludes ({ s with tb := s.tb.movedTo now } : State) g
        { completion := .short, stamp := some st, sample := m } hk
        (again := fun a b => b = s.openedOn a st m now) (fun w hw hsame hfn =>
          State.goOn_opens (s := { s with tb := s.tb.movedTo now }) hw.tb hsame (by rw [hfn]; exact hsync') rfl
            (by simp) hm)
      rw [State.publishes_movedTo] at h2
      rw [show formRecord g (({ s with tb := s.tb.movedTo now } : State).desc g) k
        { completion := .short, stamp := some st, sample := m } = _ from hrec] at h2
      exact ⟨_, hrun, h1, h2, h3, h4⟩
    · have hclose := State.timeoutClose_last (s := { s with tb := s.tb.movedTo now }) (x := x) (d := d) (.inr (.inr hfn)) hl
      rw [hclose, State.closeGate_awaits (s := { s with tb := s.tb.movedTo now }) (g := g) (.inr (.inr hfn))
        (by rw [hm]; exact not_atOrAfter_succ now)] at hrun
      exact ⟨_, hrun, rfl, fun h hne => DescOnly.modDesc _ g _ h hne, State.desc_modDesc_self ..⟩

end

end Sys2Proof.Machine
end

section
/-!
What the timebase's transitions leave of the rest of the part (`State.restKept`, R57, R69, R161), and what a relock does to
gates and notices (R12, R18, R100, R106).
-/

namespace Sys2Proof.Machine

/-! ## The rest of the part (R57, R69, R161) -/

/-- The keys of the queued notices, in their order. -/
def State.noticeKeys (s : State) : List NoticeKey := s.link.noticeQueue.map (fun e => e.key)

section
variable {s t u : State} {g : Desc}

theorem State.post_keys (s : State) (key : NoticeKey) : ∃ posted, (s.post key).noticeKeys = s.noticeKeys ++ posted := by
  rcases s.post_cases key with ⟨-, e⟩ | ⟨-, e⟩
  · exact ⟨[], by rw [e, List.append_nil]⟩
  · rcases postInto_keys key s.link.noticeQueue with h | ⟨-, h⟩
    · exact ⟨[], by rw [e, List.append_nil]; exact h⟩
    · exact ⟨[key], by rw [e]; exact h⟩

/-- Whatever the blocks post, every queued notice keeps its place. -/
theorem Reach.keys (h : Reach false s t) : ∃ posted, t.noticeKeys = s.noticeKeys ++ posted := by
  induction h with
  | refl => exact ⟨[], (List.append_nil _).symm⟩
  | same _ _ _ hlink ih =>
    obtain ⟨posted, hp⟩ := ih
    exact ⟨posted, by rw [← hp]; exact congrArg (fun l => l.noticeQueue.map (fun e => e.key)) hlink⟩
  | post _ key ih =>
    obtain ⟨posted, hp⟩ := ih
    obtain ⟨more, hm⟩ := State.post_keys _ key
    exact ⟨posted ++ more, by rw [hm, hp, List.append_assoc]⟩
  | @publish t _ k r ih =>
    obtain ⟨posted, hp⟩ := ih
    by_cases hh : (t.slot k).held = true
    · exact ⟨posted, by rw [State.publish_held hh]; exact hp⟩
    · rw [State.publish_unheld (by simpa using hh)]
      obtain ⟨more, hm⟩ := State.post_keys t (.result k)
      refine ⟨posted ++ more, ?_⟩
      rw [← List.append_assoc, ← hp, ← hm]
      exact congrArg (fun l => l.noticeQueue.map (fun e => e.key)) (State.present_link t k r)
  | offer _ st ih => exact ih
  | arbitrate hp => exact absurd hp Bool.false_ne_true

/-- A channel keeps all but its dead time, and its attempt unless that is the one in progress. -/
theorem State.chanKept_iff (s u : State) (c : Chan) :
    u.chan c = { s.chan c with
      deadEnd := (u.chan c).deadEnd
      attempt := if s.calibrates c then (u.chan c).attempt else (s.chan c).attempt } ↔
    ∃ dead attempt, u.chan c = { s.chan c with deadEnd := dead, attempt := attempt }
      ∧ (s.calibrates c = false → attempt = (s.chan c).attempt) := by
  refine ⟨fun h => ⟨_, _, h, fun hc => if_neg (by simp [hc])⟩, fun ⟨dead, attempt, h, hc⟩ => ?_⟩
  rw [h]
  by_cases hcal : s.calibrates c = true
  · rw [if_pos hcal]
  · rw [if_neg hcal, hc (by simpa using hcal)]

theorem State.restKept.refl (s : State) : s.restKept s :=
  ⟨rfl, rfl, rfl, rfl, rfl, rfl, rfl, rfl, ⟨[], (List.append_nil _).symm⟩, .inl rfl,
    fun c => (State.chanKept_iff s s c).mpr ⟨_, _, rfl, fun _ => rfl⟩⟩

theorem State.calibrates_of_dropped (h : t.cal = s.cal ∨ t.cal = none) {c : Chan} (hc : s.calibrates c = false) :
    t.calibrates c = false := by
  rcases h with h | h
  · unfold State.calibrates at *
    rw [h]
    exact hc
  · exact State.calibrates_of_none h c

theorem State.restKept.trans (h : s.restKept t) (k : t.restKept u) : s.restKept u := by
  obtain ⟨h1, h2, h3, h4, h5, h6, h7, hlink, ⟨p, hp⟩, hcal, hchan⟩ := h
  obtain ⟨k1, k2, k3, k4, k5, k6, k7, klink, ⟨q, kq⟩, kcal, kchan⟩ := k
  refine ⟨k1.trans h1, k2.trans h2, k3.trans h3, k4.trans h4, k5.trans h5, k6.trans h6, k7.trans h7, ?_,
    ⟨p ++ q, by rw [kq, hp, List.append_assoc]⟩, ?_, fun c => ?_⟩
  · rw [klink, hlink]
  · rcases kcal with e | e
    · exact hcal.imp e.trans e.trans
    · exact .inr e
  · obtain ⟨d1, a1, e1, f1⟩ := (State.chanKept_iff s t c).mp (hchan c)
    obtain ⟨d2, a2, e2, f2⟩ := (State.chanKept_iff t u c).mp (kchan c)
    refine (State.chanKept_iff s u c).mpr ⟨d2, a2, e2.trans (by rw [e1]), fun hc => ?_⟩
    rw [f2 (State.calibrates_of_dropped hcal hc), e1]
    exact f1 hc

theorem State.restKept.modTb (s : State) (f : Timebase → Timebase) : s.restKept (s.modTb f) :=
  ⟨rfl, rfl, rfl, rfl, rfl, rfl, rfl, rfl, ⟨[], (List.append_nil _).symm⟩, .inl rfl,
    fun c => (State.chanKept_iff s _ c).mpr ⟨_, _, rfl, fun _ => rfl⟩⟩

/-- What the engine does changes its descriptors, the slots and the notices. -/
theorem State.restKept.of_engine (e : EngineOnly s u) (r : Reach false s u) : s.restKept u :=
  ⟨e.power, e.lnkclk, e.levels, e.aux, e.stream, e.causes, e.pending, e.link, r.keys, .inl e.cal,
    fun c => (State.chanKept_iff s u c).mpr ⟨_, _, e.chan c, fun _ => rfl⟩⟩

theorem State.restKept.post (s : State) (key : NoticeKey) : s.restKept (s.post key) :=
  .of_engine (.post s key) (Reach.refl.post key)

theorem State.restKept.postTimebase (s : State) (cause : TbCause) : s.restKept (s.postTimebase cause) :=
  (State.restKept.modTb s _).trans (.post _ _)

theorem State.restKept.endCal (s : State) (outcome : CalOutcome) : s.restKept (s.endCal outcome) := by
  have hdrop : s.restKept (s.dropCal outcome) := by
    have e := s.dropCal_eq outcome
    refine ⟨by rw [e], by rw [e], by rw [e], by rw [e], by rw [e], by rw [e], by rw [e], by rw [e],
      ⟨[], by rw [e, List.append_nil]⟩, .inr (State.dropCal_cal s outcome), fun c => ?_⟩
    rw [State.chanKept_iff, State.dropCal_chan]
    by_cases hc : s.calibrates c = true
    · rw [if_pos hc]
      exact ⟨_, _, rfl, fun h => absurd hc (by simp [h])⟩
    · rw [if_neg hc]
      exact ⟨_, _, rfl, fun _ => rfl⟩
  unfold State.endCal
  split
  · exact .refl s
  · exact (hdrop.trans (.post _ _)).trans (.of_engine (.judgeAll _) (.judgeAll _))

theorem State.restKept.endCalIf (s : State) (p : Prop) [Decidable p] (outcome : CalOutcome) :
    s.restKept (if p then s.endCal outcome else s) := by
  split
  · exact .endCal s outcome
  · exact .refl s

theorem State.restKept.beginRelock (s : State) (target : Source) (cause : TbCause) :
    s.restKept (s.beginRelock target cause) :=
  (((State.restKept.modTb s _).trans (.postTimebase _ cause)).trans (.endCalIf _ _ .timebase)).trans
    (.of_engine (.gatherFlags _) (.gatherFlags _))

theorem State.restKept.deadTimes (s : State) :
    s.restKept (s.forChans (fun c w => w.modChan c (fun ch => { ch with deadEnd := none }))) := by
  have e := s.mapChans_eq (fun _ ch => { ch with deadEnd := none })
  have hc := s.forChans_modChan_chan (fun _ ch => { ch with deadEnd := none })
  change s.forChans (fun c w => w.modChan c (fun ch => { ch with deadEnd := none })) = _ at e
  refine ⟨by rw [e], by rw [e], by rw [e], by rw [e], by rw [e], by rw [e], by rw [e], by rw [e],
    ⟨[], by rw [e, List.append_nil]⟩, .inl (by rw [e]), fun c => ?_⟩
  rw [State.chanKept_iff, hc]
  exact ⟨_, _, rfl, fun _ => rfl⟩

theorem State.restKept.haltDescsIf (s : State) (p : Prop) [Decidable p] : s.restKept (if p then s.haltDescs else s) := by
  split
  · exact .of_engine (.haltDescs s) (.haltDescs s)
  · exact .refl s

theorem State.restKept.enterHalt (s : State) (cause : TbCause) : s.restKept (s.enterHalt cause) :=
  ((((State.restKept.modTb s _).trans (.postTimebase _ cause)).trans (.deadTimes _)).trans
    (.endCalIf _ _ .timebase)).trans (.haltDescsIf _ _)

theorem State.restKept.lose (s : State) : s.restKept s.lose := by
  unfold State.lose
  split
  · split
    · exact .refl s
    · exact .enterHalt s .loss
    · exact (State.restKept.modTb s _).trans (.postTimebase _ .loss)
    · exact .beginRelock s .int .loss
  · exact .refl s

theorem State.restKept.monitorAbsent (s : State) : s.restKept s.monitorAbsent := by
  unfold State.monitorAbsent
  dsimp only
  split
  · exact (State.restKept.modTb s _).trans (.lose _)
  · exact .modTb s _

theorem State.restKept.monitorGood (s : State) : s.restKept s.monitorGood := by
  unfold State.monitorGood
  dsimp only
  split
  · exact (State.restKept.modTb s _).trans (.beginRelock _ .ext .revert)
  · exact .modTb s _

theorem State.restKept.goodWindow (s : State) : s.restKept s.goodWindow := by
  unfold State.goodWindow
  split
  · exact .modTb s _
  · split
    · exact .modTb s _
    · exact .monitorGood s
  · exact .refl s

/-! ## The entry into RUN (R9, R12) -/

/-- RUN is entered at count 0, before readiness is judged. -/
def State.runEntered (s : State) : State :=
  (s.modTb (fun tb => { tb with state := .run, phaseTimer := none, coarse := 0, ticked := false })).postTimebase .acquired

/-- Settles O7: the posting, and readiness judged at instant 0. -/
theorem phaseTimerExpiryEntersRun : Obligations.PhaseTimerExpiryEntersRun := by
  unfold Obligations.PhaseTimerExpiryEntersRun
  refine fun s hp => ⟨fun h => ?_, fun h => ?_, fun h => ?_, fun h => ?_⟩
  · have hrun : exec .acquireEnd s = .next s.acquireDone.arbitrate :=
      State.event_to hp (f := Instr.effect .acquireEnd) (if_pos h)
    have htb := s.acquireDone_tb
    have heq := State.judgeAll_eq s.runEntered
    have hj := State.judgeAll_judged s.runEntered
    have hlink : s.runEntered.link = (s.post .timebase).link := State.post_link_congr rfl _
    rw [show s.acquireDone = s.runEntered.judgeAll from rfl] at hrun htb
    generalize s.runEntered.judgeAll = u at hrun htb heq hj
    refine ⟨u, hrun, htb, ?_, (congrArg State.link heq).trans hlink, hj⟩
    have htb' : u.tb = s.runEntered.tb := (congrArg State.tb heq).trans rfl
    have hlink' : u.link = s.runEntered.link := (congrArg State.link heq).trans rfl
    rw [htb', hlink']
    exact heq
  · exact State.event_to hp (f := Instr.effect .relockEnd) (if_pos h)
  · exact State.event_to hp (f := Instr.effect .acquireEnd) (if_neg h)
  · exact State.event_to hp (f := Instr.effect .relockEnd) (if_neg h)

end

end Sys2Proof.Machine
end

section
/-!
A relock and the entry into HALT (R10, R12, R14, R15, R18, R92, R100, R106): what they do to the channels, the gates and the
notices.
-/

namespace Sys2Proof.Machine

section
variable {s t u : State} {g : Desc} {d : Descriptor}

/-! ## The end of a calibration -/

theorem State.endCal_of_none (h : s.cal = none) (outcome : CalOutcome) : s.endCal outcome = s := by
  unfold State.endCal
  rw [h]

theorem State.endCal_of_some {r : CalRun} (h : s.cal = some r) (outcome : CalOutcome) :
    s.endCal outcome = ((s.dropCal outcome).post (.cal r.chan)).judgeAll := by
  unfold State.endCal
  rw [h]

theorem State.judgeAll_link (s : State) : s.judgeAll.link = s.link := by rw [s.judgeAll_eq]

theorem State.judgeAll_slots (s : State) : s.judgeAll.slots = s.slots := by rw [s.judgeAll_eq]

theorem State.dropCal_link (s : State) (outcome : CalOutcome) : (s.dropCal outcome).link = s.link := by
  rw [s.dropCal_eq]

theorem State.dropCal_slots (s : State) (outcome : CalOutcome) : (s.dropCal outcome).slots = s.slots := by
  rw [s.dropCal_eq]

theorem State.dropCal_desc (s : State) (outcome : CalOutcome) (g : Desc) : (s.dropCal outcome).desc g = s.desc g := by
  rw [s.dropCal_eq]
  rfl

/-- The notice of a calibration that ends. -/
theorem State.endCal_link_some {r : CalRun} (h : s.cal = some r) (outcome : CalOutcome) :
    (s.endCal outcome).link = (s.post (.cal r.chan)).link := by
  rw [State.endCal_of_some h, State.judgeAll_link]
  exact State.post_link_congr (s.dropCal_link outcome) _

theorem State.endCal_slots (s : State) (outcome : CalOutcome) : (s.endCal outcome).slots = s.slots := by
  cases h : s.cal with
  | none => rw [State.endCal_of_none h]
  | some r => rw [State.endCal_of_some h, State.judgeAll_slots, State.post_slots, State.dropCal_slots]

theorem State.endCal_chan (s : State) (outcome : CalOutcome) (c : Chan) :
    (s.endCal outcome).chan c = (s.dropCal outcome).chan c := by
  cases h : s.cal with
  | none =>
    rw [State.endCal_of_none h, State.dropCal_chan, State.calibrates_of_none h]
    rfl
  | some r => rw [State.endCal_of_some h, (EngineOnly.judgeAll _).chan, State.post_chan]

/-! ## Gates gather their flags (R106) -/

/-- A gate in progress, before its close event, gathers the flags the timebase gives. -/
def Descriptor.gathered (tb : Timebase) (d : Descriptor) : Descriptor :=
  if d.inGate = true ∧ d.closeEvent = none then
    { d with ctx := d.ctx.map (fun k => { k with flags := k.flags.union tb.gateFlags }) }
  else d

theorem State.gatherFlags_desc (s : State) (g : Desc) : s.gatherFlags.desc g = (s.desc g).gathered s.tb := by
  refine State.forEight_desc (P := fun u => u.tb = s.tb) (F := fun _ d => d.gathered s.tb) rfl (fun g u hu => ?_)
    (fun g u => ?_) (fun g u hu => ?_) g
  · split
    · exact hu
    · exact hu
  · split
    · exact .modDesc u g _
    · exact fun _ _ => rfl
  · unfold Descriptor.gathered
    split
    · rw [State.desc_modDesc_self, hu]
    · rfl

theorem State.gatherFlags_eq (s : State) : s.gatherFlags = { s with descs := s.gatherFlags.descs } := by
  refine State.forEight_keeps (P := fun u => u = { s with descs := u.descs }) (fun g u hu => ?_) rfl
  split
  · rw [hu]
    rfl
  · exact hu

theorem Descriptor.gathered_of_not (h : ¬(d.inGate = true ∧ d.closeEvent = none)) (tb : Timebase) : d.gathered tb = d :=
  if_neg h

/-- Gathering is of no effect on a gate just opened. -/
theorem State.openedAt_gathered (s : State) (d : Descriptor) (m : Sample) (len : Nat) :
    (s.openedAt d m len).gathered s.tb = s.openedAt d m len := by
  unfold Descriptor.gathered
  rw [if_pos ⟨rfl, rfl⟩]
  unfold State.openedAt
  simp [QFlags.union_gateFlags]

theorem Descriptor.gathered_state (d : Descriptor) (tb : Timebase) : (d.gathered tb).state = d.state := by
  unfold Descriptor.gathered
  split <;> rfl

theorem State.armsInto_gathered {x : Coarse} {e : Descriptor} (h : s.armsInto d x e) : s.armsInto d x (e.gathered s.tb) := by
  obtain ⟨harmed, hopen⟩ := h
  refine ⟨fun hn => ?_, fun len hfn hm => ?_⟩
  · rw [harmed hn]
    exact if_neg fun k => absurd k.1 (by simp [Descriptor.inGate])
  · obtain ⟨hst, hlen⟩ := hopen len hfn hm
    refine ⟨(e.gathered_state s.tb).trans hst, fun h1 h2 => ?_⟩
    obtain ⟨m, hx, hc, he⟩ := hlen h1 h2
    exact ⟨m, hx, hc, by rw [he, State.openedAt_gathered]⟩

theorem State.judgesAt_gathered {x : Coarse} (h : s.judgesAt u x g) (hu : u.gatherFlags = t)
    (hn : ¬((s.desc g).inGate = true ∧ (s.desc g).closeEvent = none)) : s.judgesAt t x g := by
  subst hu
  have e := EngineOnly.gatherFlags u
  unfold State.judgesAt at *
  simp only [e.tb, e.chanState, State.gatherFlags_desc, State.armsInto_congr e.tb (fun c => by rw [e.chan])]
  split_ifs at h ⊢ with hj
  · exact State.armsInto_gathered h
  · rw [h]
    exact Descriptor.gathered_of_not hn _

/-! ## A relock (R12, R14, R18) -/

/-- The relock announced, before the calibration ends and the gates gather. -/
def State.relockSeen (s : State) (target : Source) (cause : TbCause) : State :=
  (s.modTb (fun tb =>
    { tb with state := .relock, inForce := target, holdover := holdoverOf tb.selected target,
              phaseTimer := some Config.relockCycles })).postTimebase cause

theorem State.beginRelock_eq (s : State) (target : Source) (cause : TbCause) :
    s.beginRelock target cause = (if s.tb.state = .run then (s.relockSeen target cause).endCal .timebase
      else s.relockSeen target cause).gatherFlags := rfl

/-- The link after the notices of a relock or a halt. -/
theorem State.timebasePosts_link {v : State} (hl : v.link = (s.post .timebase).link) (hc : v.cal = s.cal) :
    (if s.tb.state = .run then v.endCal .timebase else v).link = s.timebasePosts.link := by
  unfold State.timebasePosts
  dsimp only
  cases h : s.cal with
  | none =>
    rw [h] at hc
    rw [State.endCal_of_none hc, ite_self]
    exact hl
  | some r =>
    rw [h] at hc
    by_cases hr : s.tb.state = .run
    · rw [if_pos hr, State.endCal_link_some hc]
      dsimp only
      rw [if_pos hr]
      exact State.post_link_congr hl _
    · rw [if_neg hr]
      dsimp only
      rw [if_neg hr]
      exact hl

theorem State.judgeAll_desc (hw : (s.desc g).state ≠ .waitArm) : s.judgeAll.desc g = s.desc g := by
  have h := s.judgeAll_judged g
  unfold State.judgesAt at h
  rwa [if_neg (fun k => hw k.1)] at h

theorem State.endCal_desc (hw : (s.desc g).state ≠ .waitArm) (outcome : CalOutcome) :
    (s.endCal outcome).desc g = s.desc g := by
  cases h : s.cal with
  | none => rw [State.endCal_of_none h]
  | some r =>
    have hd : ((s.dropCal outcome).post (.cal r.chan)).desc g = s.desc g := s.dropCal_desc outcome g
    rw [State.endCal_of_some h, State.judgeAll_desc (by rw [hd]; exact hw), hd]

/-- What a relock does. -/
theorem State.beginRelock_begins (s : State) (target : Source) (cause : TbCause) :
    s.relockBegun (s.beginRelock target cause) := by
  have hv := s.beginRelock_eq target cause
  have htb := s.beginRelock_tb target cause
  have hseen : ∀ h, (s.relockSeen target cause).desc h = s.desc h := fun _ => rfl
  have hchan : ∀ c, (s.relockSeen target cause).chan c = s.chan c := fun _ => rfl
  have hslots : (s.relockSeen target cause).slots = s.slots := rfl
  have hcoarse : (s.relockSeen target cause).tb.coarse = s.tb.coarse := rfl
  have hcal : (s.relockSeen target cause).cal = s.cal := rfl
  have hlink := State.timebasePosts_link (s := s) (v := s.relockSeen target cause) (State.post_link_congr rfl _) rfl
  generalize s.relockSeen target cause = p at hv hseen hchan hslots hcoarse hcal hlink
  have hother : ¬(s.tb.state = .run ∧ s.cal ≠ none) → (if s.tb.state = .run then p.endCal .timebase else p) = p := by
    intro hn
    by_cases hr : s.tb.state = .run
    · rw [if_pos hr, State.endCal_of_none]
      rw [hcal]
      exact by_contra fun h => hn ⟨hr, h⟩
    · exact if_neg hr
  have hvslots : (if s.tb.state = .run then p.endCal .timebase else p).slots = s.slots := by
    split
    · rw [State.endCal_slots, hslots]
    · exact hslots
  have hvchan (c : Chan) : ((if s.tb.state = .run then p.endCal .timebase else p).chan c).deadEnd = (s.chan c).deadEnd := by
    split
    · rw [State.endCal_chan, State.dropCal_chan]
      split <;> rw [hchan]
    · rw [hchan]
  have hvdesc (g : Desc) (hw : (s.desc g).state ≠ .waitArm) :
      (if s.tb.state = .run then p.endCal .timebase else p).desc g = s.desc g := by
    split
    · rw [State.endCal_desc (by rw [hseen]; exact hw), hseen]
    · exact hseen g
  have hjudged (h : s.tb.state = .run ∧ s.cal ≠ none) (g : Desc) :
      s.judgesAt (if s.tb.state = .run then p.endCal .timebase else p) s.tb.coarse g := by
    obtain ⟨r, hr⟩ := Option.ne_none_iff_exists'.mp h.2
    rw [if_pos h.1, State.endCal_of_some (hcal.trans hr)]
    have hj := ((p.dropCal .timebase).post (.cal r.chan)).judgeAll_judged g
    have hq : ((p.dropCal .timebase).post (.cal r.chan)).tb.coarse = s.tb.coarse := by
      rw [State.post_tb, State.dropCal_tb, hcoarse]
    rw [hq] at hj
    exact (State.judgesAt_congr (s := s) ((p.dropCal_desc .timebase g).trans (hseen g)) rfl (fun _ => rfl) (fun _ => rfl)
      rfl).mp hj
  generalize (if s.tb.state = .run then p.endCal .timebase else p) = v at hv hlink hother hvslots hvchan hvdesc hjudged
  have he := EngineOnly.gatherFlags v
  have heq := v.gatherFlags_eq
  have hd := v.gatherFlags_desc
  have hjg := fun g h hn => State.judgesAt_gathered (s := s) (g := g) (x := s.tb.coarse) (hjudged h g) rfl hn
  rw [hv] at htb ⊢
  generalize v.gatherFlags = u at he heq hd htb hjg
  refine ⟨⟨?_, fun g => ?_⟩, fun c => ?_, ?_⟩
  · exact (congrArg State.slots heq).trans hvslots
  · by_cases hin : (s.desc g).inGate = true ∧ (s.desc g).closeEvent = none
    · have hw := Descriptor.state_ne_waitArm_of_inGate hin.1
      rw [if_pos hin, hd, hvdesc g hw, ← he.tb]
      unfold Descriptor.gathered
      rw [if_pos hin, htb]
      simp only [QFlags.union_gateFlags, decide_true, Bool.or_true]
    · rw [if_neg hin]
      by_cases hc : s.tb.state = .run ∧ s.cal ≠ none
      · rw [if_pos hc]
        exact hjg g hc hin
      · rw [if_neg hc, hd, hother hc, hseen]
        exact Descriptor.gathered_of_not hin _
  · rw [he.chan, hvchan]
  · exact (congrArg State.link heq).trans hlink

theorem State.beginRelock_chan (s : State) (target : Source) (cause : TbCause) (c : Chan) :
    (s.beginRelock target cause).chan c = if s.tb.state = .run then (s.dropCal .timebase).chan c else s.chan c := by
  rw [State.beginRelock_eq, (EngineOnly.gatherFlags _).chan]
  split
  · rw [State.endCal_chan, State.dropCal_chan, State.dropCal_chan]
    rfl
  · rfl

/-! ## The notices of the timebase (R18, R69) -/

theorem State.timebasePosts_timebase (h : s.link.mask.timebase = true) :
    ∃ e ∈ s.timebasePosts.link.noticeQueue, e.key = .timebase := by
  have hp : ∃ e ∈ (s.post .timebase).link.noticeQueue, e.key = .timebase := State.post_has h
  unfold State.timebasePosts
  dsimp only
  split
  · split
    · exact (EngineOnly.post (s.post .timebase) _).notices .timebase hp
    · exact hp
  · exact hp

theorem State.timebasePosts_cal {r : CalRun} (hr : s.cal = some r) (hs : s.tb.state = .run) (h : s.link.mask.cal = true) :
    ∃ e ∈ s.timebasePosts.link.noticeQueue, e.key = .cal r.chan := by
  have hp : s.timebasePosts = (s.post .timebase).post (.cal r.chan) := by
    unfold State.timebasePosts
    rw [hr]
    exact if_pos hs
  rw [hp]
  exact State.post_has (by rw [(EngineOnly.post s .timebase).mask]; exact h)

/-! ## The waiting records are formed at the entry into HALT (R92) -/

/-- The waiting records formed one after the other keep `State.formsWaiting`. -/
theorem State.formAtHalt_formsWaiting (g : Desc) : ∀ (n : Nat) (s : State), State.formsWaiting g n s (s.formAtHalt g n)
  | 0, _ => rfl
  | n + 1, s => by
    unfold State.formsWaiting State.formAtHalt
    cases he : (s.desc g).closeEvent with
    | none => exact if_neg (by simp)
    | some e =>
      rw [if_neg (by simp), if_pos (by simp), State.formation_eq he]
      exact ⟨_, ((EngineOnly.modDesc s g _).trans (.conclude _ g e)).eq, State.conclude_formsRecord he,
        State.formAtHalt_formsWaiting g n _⟩

/-- The part with the waiting records of the first `n` descriptors formed. -/
def State.haltStage (s : State) (n : Nat) : State :=
  (allEight.take n).foldl (fun u g => u.formAtHalt g ((u.desc g).deferred.length + 1)) s

theorem State.haltStage_succ (s : State) (g : Desc) : s.haltStage (g.val + 1) =
    (s.haltStage g.val).formAtHalt g (((s.haltStage g.val).desc g).deferred.length + 1) := by
  have htake : ∀ g : Desc, allEight.take (g.val + 1) = allEight.take g.val ++ [g] := by decide
  unfold State.haltStage
  rw [htake, List.foldl_append]
  rfl

theorem State.haltStage_eight (s : State) :
    s.haltStage 8 = s.forEight (fun g u => u.formAtHalt g ((u.desc g).deferred.length + 1)) := by
  unfold State.haltStage State.forEight
  rw [show allEight.take 8 = allEight from rfl]

theorem State.haltDescs_eq (s : State) : s.haltDescs = (s.haltStage 8).forEight (fun g u => u.returnToWait g) := by
  rw [State.haltStage_eight]
  rfl

/-- With no record waiting none is formed. -/
theorem State.haltStage_none (h : ∀ g, (s.desc g).closeEvent = none) : s.haltStage 8 = s := by
  rw [State.haltStage_eight]
  refine State.forEight_keeps (P := fun u => u = s) (fun g u hu => ?_) rfl
  subst hu
  unfold State.formAtHalt
  rw [h g]
  rfl

/-! ## Running descriptors return to WAIT_ARM (R100) -/

theorem Descriptor.returned_eq_halted (d : Descriptor) : d.returned = d.halted := by
  unfold Descriptor.returned Descriptor.halted
  rw [Descriptor.applyPending_eq]

/-- The postings of the descriptors that return, in their order. -/
theorem State.returnToWait_links : ∀ (l : List Desc) (v w : State), v.link = w.link → l.Nodup → (∀ g ∈ l, v.desc g = s.desc g) →
    (l.foldl (fun u g => u.returnToWait g) v).link =
      (l.foldl (fun u g => if (s.desc g).running then u.post (.gate g) else u) w).link
  | [], _, _, hl, _, _ => hl
  | g :: l, v, w, hl, hn, hd => by
    obtain ⟨hg, hn'⟩ := List.nodup_cons.mp hn
    refine State.returnToWait_links l _ _ ?_ hn' (fun h hh => ?_)
    · dsimp only
      unfold State.returnToWait
      rw [hd g List.mem_cons_self]
      split
      · exact State.post_link_congr hl _
      · exact hl
    · have hne : h ≠ g := fun e => hg (e ▸ hh)
      rw [DescOnly.returnToWait v g h hne]
      exact hd h (List.mem_cons_of_mem _ hh)

/-- A posting of a running descriptor is queued behind the loop. -/
theorem State.gatePosts_has {g : Desc} (hr : (s.desc g).running = true) {l : List Desc} (hg : g ∈ l) (w : State)
    (hm : w.link.mask.gate = true) :
    ∃ e ∈ (l.foldl (fun u g => if (s.desc g).running then u.post (.gate g) else u) w).link.noticeQueue,
      e.key = .gate g := by
  have step (w : State) (h : Desc) : EngineOnly w (if (s.desc h).running then w.post (.gate h) else w) := by
    split
    · exact .post w _
    · exact .refl w
  induction l generalizing w with
  | nil => cases hg
  | cons h l ih =>
    rw [List.foldl_cons]
    rcases List.mem_cons.mp hg with rfl | hg
    · refine (EngineOnly.foldl step l _).notices _ ?_
      rw [if_pos hr]
      exact State.post_has hm
    · exact ih hg _ (by rw [(step w h).mask]; exact hm)

theorem State.returnToWait_descs (s : State) (g : Desc) :
    (s.forEight (fun g u => u.returnToWait g)).desc g = (s.desc g).returned := by
  refine State.forEight_desc (P := fun u => u = u) (F := fun _ d => d.returned) rfl (fun _ _ _ => rfl)
    (fun g u => ?_) (fun g u _ => ?_) g
  · exact .returnToWait u g
  · exact u.returnToWait_desc g

theorem State.returnToWait_gatesHalted (s : State) :
    s.gatesHalted (s.forEight (fun g u => u.returnToWait g))
    ∧ (s.forEight (fun g u => u.returnToWait g)).link = (([0, 1, 2, 3, 4, 5, 6, 7] : List Desc).foldl
        (fun v g => if (s.desc g).running then v.post (.gate g) else v) s).link := by
  have hlink : (s.forEight (fun g u => u.returnToWait g)).link = (([0, 1, 2, 3, 4, 5, 6, 7] : List Desc).foldl
      (fun v g => if (s.desc g).running then v.post (.gate g) else v) s).link :=
    State.returnToWait_links (s := s) allEight s s rfl (by decide) (fun _ _ => rfl)
  refine ⟨⟨?_, fun g => ⟨?_, fun hr hm => ?_⟩⟩, hlink⟩
  · refine State.forEight_keeps (P := fun u => u.slots = s.slots) (fun g u hu => ?_) rfl
    unfold State.returnToWait
    split
    · exact hu
    · exact hu
  · refine Eq.trans ?_ (Descriptor.returned_eq_halted (s.desc g))
    exact s.returnToWait_descs g
  · rw [hlink]
    exact State.gatePosts_has hr (mem_allEight g) s hm

/-! ## The entry into HALT (R10, R15, R55, R69) -/

theorem State.judge_halted (h : s.tb.counting = false) (g : Desc) : s.judge g = s := by
  unfold State.judge State.ready
  rw [h]
  exact if_neg (by simp)

theorem State.judgeAll_halted (h : s.tb.counting = false) : s.judgeAll = s :=
  State.forEight_keeps (P := fun u => u = s) (fun g u hu => by subst hu; exact State.judge_halted h g) rfl

/-- HALT announced and the dead times idle, before the calibration ends. -/
def State.haltSeen (s : State) (cause : TbCause) : State :=
  ((s.modTb (fun tb =>
    { tb with state := .halt, inForce := .none, holdover := false, phaseTimer := none })).postTimebase cause).forChans
      (fun c w => w.modChan c (fun ch => { ch with deadEnd := none }))

/-- The part at the entry into HALT, before the engine follows. -/
def State.haltStart (s : State) (cause : TbCause) : State :=
  if s.tb.state = .run then (s.haltSeen cause).endCal .timebase else s.haltSeen cause

theorem State.enterHalt_eq (s : State) (cause : TbCause) :
    s.enterHalt cause = if s.tb.counting then (s.haltStart cause).haltDescs else s.haltStart cause := rfl

theorem State.haltSeen_eq (s : State) (cause : TbCause) : s.haltSeen cause =
    { s with
      tb := (s.haltSeen cause).tb, chans := (s.haltSeen cause).chans, link := (s.post .timebase).link } := by
  have e := ((s.modTb (fun tb =>
    { tb with state := .halt, inForce := .none, holdover := false, phaseTimer := none })).postTimebase cause).mapChans_eq
      (fun _ ch => { ch with deadEnd := none })
  have htb : (s.haltSeen cause).tb = ((s.modTb (fun tb =>
    { tb with state := .halt, inForce := .none, holdover := false, phaseTimer := none })).postTimebase cause).tb :=
    State.forChans_modChan_tb _ (fun _ ch => { ch with deadEnd := none })
  rw [htb]
  exact e

theorem State.haltSeen_chan (s : State) (cause : TbCause) (c : Chan) :
    (s.haltSeen cause).chan c = { s.chan c with deadEnd := none } :=
  State.forChans_modChan_chan _ (fun _ ch => { ch with deadEnd := none }) c

theorem State.haltSeen_counting (s : State) (cause : TbCause) : (s.haltSeen cause).tb.counting = false := by
  have htb : (s.haltSeen cause).tb = _ := State.forChans_modChan_tb _ (fun _ ch => { ch with deadEnd := none })
  rw [htb]
  rfl

theorem State.endCal_halted (h : s.tb.counting = false) (outcome : CalOutcome) : (s.endCal outcome).descs = s.descs := by
  cases hc : s.cal with
  | none => rw [State.endCal_of_none hc]
  | some r =>
    rw [State.endCal_of_some hc, State.judgeAll_halted (by rw [State.post_tb, State.dropCal_tb]; exact h), State.post_descs,
      s.dropCal_eq]

theorem State.haltStart_descs (s : State) (cause : TbCause) : (s.haltStart cause).descs = s.descs := by
  have hseen : (s.haltSeen cause).descs = s.descs := by rw [s.haltSeen_eq cause]
  unfold State.haltStart
  split
  · rw [State.endCal_halted (s.haltSeen_counting cause), hseen]
  · exact hseen

theorem State.haltStart_slots (s : State) (cause : TbCause) : (s.haltStart cause).slots = s.slots := by
  have hseen : (s.haltSeen cause).slots = s.slots := by rw [s.haltSeen_eq cause]
  unfold State.haltStart
  split
  · rw [State.endCal_slots, hseen]
  · exact hseen

theorem State.haltStart_link (s : State) (cause : TbCause) : (s.haltStart cause).link = s.timebasePosts.link := by
  have e := s.haltSeen_eq cause
  exact State.timebasePosts_link (by rw [e]) (by rw [e])

theorem State.haltStart_chan (s : State) (cause : TbCause) (c : Chan) : (s.haltStart cause).chan c =
    { (if s.tb.state = .run then (s.dropCal .timebase).chan c else s.chan c) with deadEnd := none } := by
  have hcal : (s.haltSeen cause).calibrates c = s.calibrates c := by
    unfold State.calibrates
    rw [s.haltSeen_eq cause]
  unfold State.haltStart
  by_cases hr : s.tb.state = .run
  · rw [if_pos hr, if_pos hr, State.endCal_chan, State.dropCal_chan, State.dropCal_chan, hcal, State.haltSeen_chan]
    split <;> rfl
  · rw [if_neg hr, if_neg hr, State.haltSeen_chan]

theorem State.restKept.haltStart (s : State) (cause : TbCause) : s.restKept (s.haltStart cause) :=
  (((State.restKept.modTb s _).trans (.postTimebase _ cause)).trans (.deadTimes _)).trans (.endCalIf _ _ .timebase)

/-- From RUN and RELOCK the engine follows into HALT. -/
theorem State.enterHalt_counting (h : s.tb.counting = true) (cause : TbCause) :
    s.enterHalt cause = (s.haltStart cause).haltDescs := by
  rw [State.enterHalt_eq, if_pos h]

theorem State.enterHalt_engineHalted (h : s.tb.counting = true) (cause : TbCause) :
    s.engineHalted (s.enterHalt cause) := by
  rw [State.enterHalt_counting h]
  have hk := State.restKept.haltStart s cause
  have hd := s.haltStart_descs cause
  have hs := s.haltStart_slots cause
  have hl := s.haltStart_link cause
  generalize s.haltStart cause = v at hk hd hs hl
  have he := EngineOnly.haltDescs v
  obtain ⟨hgates, hlink⟩ := (v.haltStage 8).returnToWait_gatesHalted
  rw [← State.haltDescs_eq] at hgates hlink
  refine ⟨v, fun i => v.haltStage i.val, hk, he.tb.symm, he.cal.symm, he.chans.symm, hd, hs, hl, rfl, fun g => ?_,
    hgates, hlink⟩
  show State.formsWaiting g _ (v.haltStage g.val) (v.haltStage (g.val + 1))
  rw [v.haltStage_succ g]
  exact State.formAtHalt_formsWaiting g _ _

theorem State.enterHalt_gatesHalted (h : s.tb.counting = true) (hn : ∀ g, (s.desc g).closeEvent = none) (cause : TbCause) :
    s.gatesHalted (s.enterHalt cause) := by
  have hd (g : Desc) : (s.haltStart cause).desc g = s.desc g := by
    unfold State.desc
    rw [s.haltStart_descs cause]
  have hmask : (s.haltStart cause).link.mask = s.link.mask := by
    have hlink := (State.restKept.haltStart s cause).2.2.2.2.2.2.2.1
    rw [hlink]
  obtain ⟨⟨hslots, hgates⟩, -⟩ := (s.haltStart cause).returnToWait_gatesHalted
  rw [State.enterHalt_counting h, State.haltDescs_eq, State.haltStage_none (fun g => by rw [hd]; exact hn g)]
  refine ⟨hslots.trans (s.haltStart_slots cause), fun g => ?_⟩
  have hg := hgates g
  rw [hd, hmask] at hg
  exact hg

theorem State.enterHalt_chan (s : State) (cause : TbCause) (c : Chan) : (s.enterHalt cause).chan c =
    { (if s.tb.state = .run then (s.dropCal .timebase).chan c else s.chan c) with deadEnd := none } := by
  rw [State.enterHalt_eq, ← State.haltStart_chan]
  split
  · exact (EngineOnly.haltDescs _).chan c
  · rfl

/-- The notices of the timebase are queued behind the entry into HALT. -/
theorem State.enterHalt_notices (s : State) (cause : TbCause) {key : NoticeKey}
    (h : ∃ e ∈ s.timebasePosts.link.noticeQueue, e.key = key) :
    ∃ e ∈ (s.enterHalt cause).link.noticeQueue, e.key = key := by
  rw [← s.haltStart_link cause] at h
  rw [State.enterHalt_eq]
  split
  · exact (EngineOnly.haltDescs _).notices key h
  · exact h

/-- From ACQUIRE the engine has nothing to follow. -/
theorem State.enterHalt_acquire (h : s.tb.state = .acquire) (cause : TbCause) :
    s.enterHalt cause = { s with
      tb := (s.enterHalt cause).tb, chans := (s.enterHalt cause).chans, link := (s.post .timebase).link } := by
  have e : s.enterHalt cause = s.haltSeen cause := by
    have hc : ¬s.tb.counting = true := by simp [Timebase.counting_of_halt (.inr h)]
    rw [State.enterHalt_eq, if_neg hc]
    exact if_neg (by simp [h])
  rw [e]
  exact s.haltSeen_eq cause

end

end Sys2Proof.Machine
end

section
/-!
The reference monitor (R3, R4), losses and the return of the reference (R14 to R16), TB SELECT (R11), and the calibrations that
the timebase aborts in leaving RUN (R69).
-/

namespace Sys2Proof.Machine

section
variable {s t u : State} {seen : Timebase}

/-! ## The monitor (R3, R4) -/

theorem Timebase.windowGood_iff (tb : Timebase) :
    tb.windowGood = true ↔ 990 ≤ tb.windowCount ∧ tb.windowCount ≤ 1010 ∧ tb.windowStarved = false := by
  simp only [Timebase.windowGood, Bool.and_eq_true, decide_eq_true_eq, Bool.not_eq_true', and_assoc]
  exact Iff.rfl

/-- Going ABSENT is a loss from PRESENT and GOOD with EXT in force. -/
theorem State.monitorAbsent_lost (hm : s.tb.monitor ≠ .absent) (hf : s.tb.inForce = .ext) :
    s.monitorAbsent = ({ s with tb := { s.tb with monitor := .absent, runCount := 0 } } : State).lose := by
  unfold State.monitorAbsent
  dsimp only
  rw [if_pos (by simp [hm, hf])]
  rfl

/-- Otherwise, and without detection, only the monitor moves. -/
theorem State.monitorAbsent_quiet (h : s.tb.monitor = .absent ∨ s.tb.inForce ≠ .ext ∨ s.tb.lossDetect = false) :
    s.monitorAbsent = { s with tb := { s.tb with monitor := .absent, runCount := 0 } } := by
  by_cases hl : s.tb.monitor ≠ .absent ∧ s.tb.inForce = .ext
  · have hdet : s.tb.lossDetect = false :=
      (h.resolve_left hl.1).resolve_left (fun e => e hl.2)
    rw [State.monitorAbsent_lost hl.1 hl.2]
    exact if_neg (by simp [hdet])
  · unfold State.monitorAbsent
    dsimp only
    rw [if_neg (by simpa using hl)]
    rfl

/-- A loss leaves the monitor and its window. -/
theorem State.lose_monitor (s : State) : s.lose.tb.monitor = s.tb.monitor ∧ s.lose.tb.runCount = s.tb.runCount
    ∧ s.lose.tb.windowCount = s.tb.windowCount ∧ s.lose.tb.windowStarved = s.tb.windowStarved := by
  unfold State.lose
  split
  · split
    · exact ⟨rfl, rfl, rfl, rfl⟩
    · rw [State.enterHalt_tb]
      exact ⟨rfl, rfl, rfl, rfl⟩
    · exact ⟨rfl, rfl, rfl, rfl⟩
    · rw [State.beginRelock_tb]
      exact ⟨rfl, rfl, rfl, rfl⟩
  · exact ⟨rfl, rfl, rfl, rfl⟩

theorem State.monitorAbsent_monitor (s : State) : s.monitorAbsent.tb.monitor = .absent ∧ s.monitorAbsent.tb.runCount = 0
    ∧ s.monitorAbsent.tb.windowCount = s.tb.windowCount ∧ s.monitorAbsent.tb.windowStarved = s.tb.windowStarved := by
  unfold State.monitorAbsent
  dsimp only
  split
  · exact State.lose_monitor _
  · exact ⟨rfl, rfl, rfl, rfl⟩

/-- The hundredth good window in RUN in holdover with auto-revert ON begins a relock. -/
theorem State.monitorGood_reverts (h : s.tb.autoRevert = true ∧ s.tb.state = .run ∧ s.tb.holdover = true) :
    s.monitorGood =
      ({ s with tb := { s.tb with monitor := .good, runCount := 100 } } : State).beginRelock .ext .revert := by
  unfold State.monitorGood
  exact if_pos h

theorem State.monitorGood_quiet (h : ¬(s.tb.autoRevert = true ∧ s.tb.state = .run ∧ s.tb.holdover = true)) :
    s.monitorGood = { s with tb := { s.tb with monitor := .good, runCount := 100 } } := by
  unfold State.monitorGood
  exact if_neg h

theorem State.goodWindow_present (hm : s.tb.monitor = .present) : s.goodWindow =
    if s.tb.runCount + 1 < 100 then { s with tb := { s.tb with runCount := s.tb.runCount + 1 } } else s.monitorGood := by
  unfold State.goodWindow
  rw [hm]
  rfl

/-- The end of a window. -/
theorem exec_windowEnd (hp : s.power = .ready) : exec .monitorWindowEnd s = .next
    (if s.tb.windowGood then ({ s with tb := s.tb.newWindow } : State).goodWindow
      else ({ s with tb := s.tb.newWindow } : State).monitorAbsent).arbitrate :=
  State.event_to hp (f := Instr.effect .monitorWindowEnd) rfl

/-- The divider. -/
theorem Timebase.referenceEdge_eq (tb : Timebase) : tb.referenceEdge =
    if tb.refFreq = .mhz10 then { tb with windowCount := tb.windowCount + 1 }
    else if tb.dividerHalf then { tb with dividerHalf := false, windowCount := tb.windowCount + 1 }
    else { tb with dividerHalf := true } := by
  obtain ⟨_, freq, _, _, _, _, _, _, half, _, _, _, _, _, _, _, _, _⟩ := tb
  cases freq
  · rfl
  · cases half <;> rfl

/-- Settles O5: the table of the monitor, the divider, and a starvation. -/
theorem monitorFollowsWindowsEdgesAndStarvation : Obligations.MonitorFollowsWindowsEdgesAndStarvation := by
  unfold Obligations.MonitorFollowsWindowsEdgesAndStarvation
  refine ⟨fun s hp => ⟨_, exec_windowEnd hp, ?_⟩, fun s hp => ⟨?_, _,
    State.event_to hp (f := Instr.effect .starvation) rfl, ?_⟩⟩
  · by_cases hg : s.tb.windowGood = true
    · rw [if_pos hg, if_pos ((Timebase.windowGood_iff _).mp hg)]
      refine ⟨(State.restKept.modTb s _).trans (.goodWindow _), ?_⟩
      cases hm : s.tb.monitor with
      | absent =>
        have e : ({ s with tb := s.tb.newWindow } : State).goodWindow =
            { s with tb := { s.tb.newWindow with monitor := .present, runCount := 1 } } := by
          unfold State.goodWindow
          rw [show ({ s with tb := s.tb.newWindow } : State).tb.monitor = .absent from hm]
          rfl
        rw [e]
        exact ⟨rfl, rfl, ⟨rfl, rfl⟩, fun _ => rfl⟩
      | good =>
        have e : ({ s with tb := s.tb.newWindow } : State).goodWindow = { s with tb := s.tb.newWindow } := by
          unfold State.goodWindow
          rw [show ({ s with tb := s.tb.newWindow } : State).tb.monitor = .good from hm]
        rw [e]
        exact ⟨rfl, rfl, ⟨hm, rfl⟩, fun _ => rfl⟩
      | present =>
        have e := State.goodWindow_present (s := { s with tb := s.tb.newWindow }) hm
        dsimp only
        by_cases hr : s.tb.runCount + 1 < 100
        · rw [e.trans (if_pos hr), if_pos hr]
          exact ⟨rfl, rfl, ⟨hm, rfl⟩, fun _ => rfl⟩
        · rw [if_neg hr]
          by_cases ha : s.tb.autoRevert = true ∧ s.tb.state = .run ∧ s.tb.holdover = true
          · rw [(e.trans (if_neg hr)).trans (State.monitorGood_reverts (s := { s with tb := s.tb.newWindow }) ha)]
            refine ⟨by rw [State.beginRelock_tb]; rfl, by rw [State.beginRelock_tb]; rfl,
              ⟨by rw [State.beginRelock_tb], by rw [State.beginRelock_tb]⟩, fun hn => absurd ?_ hn⟩
            exact ⟨rfl, by omega, ha⟩
          · rw [(e.trans (if_neg hr)).trans (State.monitorGood_quiet (s := { s with tb := s.tb.newWindow }) ha)]
            exact ⟨rfl, rfl, ⟨rfl, rfl⟩, fun _ => rfl⟩
    · rw [if_neg hg, if_neg (mt (Timebase.windowGood_iff _).mpr hg)]
      obtain ⟨h1, h2, h3, h4⟩ := State.monitorAbsent_monitor { s with tb := s.tb.newWindow }
      exact ⟨(State.restKept.modTb s _).trans (.monitorAbsent _), h3, h4, h1, h2,
        fun h => State.monitorAbsent_quiet (s := { s with tb := s.tb.newWindow }) h⟩
  · refine State.event_to hp (f := Instr.effect .referenceEdge) ?_
    show ({ s with tb := s.tb.referenceEdge } : State) = _
    rw [Timebase.referenceEdge_eq]
  · obtain ⟨h1, h2, -, h4⟩ := State.monitorAbsent_monitor { s with tb := { s.tb with windowStarved := true } }
    exact ⟨h1, h2, h4, fun h => State.monitorAbsent_quiet (s := { s with tb := { s.tb with windowStarved := true } }) h⟩

end

end Sys2Proof.Machine
end

section
/-!
Losses and the return of the reference (R14 to R16), TB SELECT (R11), and the calibrations that the timebase aborts in leaving
RUN (R69).
-/

namespace Sys2Proof.Machine

section
variable {s t u : State} {seen : Timebase}

/-! ## What is said of a transition does not look at the monitor or the configuration -/

theorem State.timebasePosts_link_congr (hlink : t.link = s.link) (hcal : t.cal = s.cal) (hst : t.tb.state = s.tb.state) :
    t.timebasePosts.link = s.timebasePosts.link := by
  have hp := State.post_link_congr hlink .timebase
  unfold State.timebasePosts
  dsimp only
  rw [hcal, hst]
  split
  · split
    · exact State.post_link_congr hp _
    · exact hp
  · exact hp

theorem State.relockBegun_of_tb (hst : seen.state = s.tb.state) (hx : seen.coarse = s.tb.coarse)
    (h : ({ s with tb := seen } : State).relockBegun u) : s.relockBegun u := by
  obtain ⟨⟨hslots, hgates⟩, hdead, hlink⟩ := h
  refine ⟨⟨hslots, fun g => ?_⟩, hdead, hlink.trans (State.timebasePosts_link_congr rfl rfl hst)⟩
  have hg := hgates g
  dsimp only at hg
  rw [hx] at hg
  simp only [hst] at hg
  exact hg

theorem State.engineHalted_of_tb (hst : seen.state = s.tb.state)
    (h : ({ s with tb := seen } : State).engineHalted u) : s.engineHalted u := by
  obtain ⟨v, p, hk, htb, hcal, hch, hd, hs, hl, hrest⟩ := h
  exact ⟨v, p, (State.restKept.modTb s (fun _ => seen)).trans hk, htb, hcal, hch, hd, hs,
    hl.trans (State.timebasePosts_link_congr rfl rfl hst), hrest⟩

theorem State.gatesHalted_of_tb (h : ({ s with tb := seen } : State).gatesHalted u) : s.gatesHalted u := ⟨h.1, h.2⟩

/-! ## Losses (R14, R15) -/

theorem State.restartAcquire_eq (hsel : s.tb.selected = .ext) : s.restartAcquire = { s with
    tb := { s.tb with inForce := .int, holdover := true, phaseTimer := some 20000
                      changeCount := s.tb.changeCount + 1, lastCause := .loss }
    link := (s.post .timebase).link } := by
  have hh : holdoverOf s.tb.selected .int = true := by
    rw [hsel]
    rfl
  rw [← hh]
  rfl

theorem State.lose_off (h : s.tb.lossDetect = false) : s.lose = s := by
  unfold State.lose
  exact if_neg (by simp [h])

theorem State.lose_halts (hdet : s.tb.lossDetect = true) (ha : s.tb.lossAction = .halt) (hst : s.tb.state ≠ .halt) :
    s.lose = s.enterHalt .loss := by
  unfold State.lose
  rw [if_pos hdet, ha]
  generalize s.tb.state = st at hst
  cases st
  · exact absurd rfl hst
  all_goals rfl

theorem State.lose_restarts (hdet : s.tb.lossDetect = true) (ha : s.tb.lossAction = .switch) (hst : s.tb.state = .acquire) :
    s.lose = s.restartAcquire := by
  unfold State.lose
  rw [if_pos hdet, ha, hst]

theorem State.lose_relocks (hdet : s.tb.lossDetect = true) (ha : s.tb.lossAction = .switch)
    (hst : s.tb.state = .run ∨ s.tb.state = .relock) : s.lose = s.beginRelock .int .loss := by
  unfold State.lose
  rw [if_pos hdet, ha]
  rcases hst with h | h <;> rw [h]

theorem State.beginRelock_notice (s : State) (target : Source) (cause : TbCause) (h : s.link.mask.timebase = true) :
    ∃ e ∈ (s.beginRelock target cause).link.noticeQueue, e.key = .timebase := by
  obtain ⟨-, -, hlink⟩ := s.beginRelock_begins target cause
  rw [hlink]
  exact State.timebasePosts_timebase h

theorem TbState.running_of {st : TbState} (h1 : st ≠ .halt) (h2 : st ≠ .acquire) : st = .run ∨ st = .relock := by
  cases st
  · exact absurd rfl h1
  · exact absurd rfl h2
  · exact .inl rfl
  · exact .inr rfl

/-- What a loss does, the monitor's part of the timebase being as in `seen`. -/
theorem State.lose_follows (s : State) (seen : Timebase) (hsel : seen.selected = .ext) (hst : seen.state = s.tb.state)
    (hx : seen.coarse = s.tb.coarse) (hdet : seen.lossDetect = s.tb.lossDetect) (hact : seen.lossAction = s.tb.lossAction)
    (hcount : seen.changeCount = s.tb.changeCount) (hhalt : s.tb.state ≠ .halt) :
    let posted : Timebase := { seen with changeCount := s.tb.changeCount + 1, lastCause := .loss }
    let u := ({ s with tb := seen } : State).lose
    s.restKept u
    ∧ (s.tb.lossDetect = false → u = { s with tb := seen })
    ∧ (s.tb.lossDetect = true → s.tb.lossAction = .halt →
        u.tb = { posted with state := .halt, inForce := .none, holdover := false, phaseTimer := none }
        ∧ (∀ c : Chan, (u.chan c).deadEnd = none)
        ∧ (s.link.mask.timebase = true → ∃ e ∈ u.link.noticeQueue, e.key = .timebase)
        ∧ (s.tb.state = .acquire →
            u = { s with tb := u.tb, chans := u.chans, link := (s.post .timebase).link }
            ∧ ∀ c : Chan, u.chan c = { s.chan c with deadEnd := none })
        ∧ (s.tb.state = .run ∨ s.tb.state = .relock →
            s.engineHalted u ∧ ((∀ g : Desc, (s.desc g).closeEvent = none) → s.gatesHalted u)))
    ∧ (s.tb.lossDetect = true → s.tb.lossAction = .switch → s.tb.state = .acquire →
        u = { s with tb := { posted with inForce := .int, holdover := true, phaseTimer := some 20000 }
                     link := (s.post .timebase).link })
    ∧ (s.tb.lossDetect = true → s.tb.lossAction = .switch → s.tb.state = .run ∨ s.tb.state = .relock →
        u.tb = { posted with state := .relock, inForce := .int, holdover := true, phaseTimer := some 10000 }
        ∧ (s.link.mask.timebase = true → ∃ e ∈ u.link.noticeQueue, e.key = .timebase)
        ∧ s.relockBegun u) := by
  intro posted u
  refine ⟨(State.restKept.modTb s (fun _ => seen)).trans (.lose _), fun h => State.lose_off (hdet.trans h), fun h ha => ?_,
    fun h ha hs => ?_, fun h ha hs => ?_⟩
  · have hu : u = ({ s with tb := seen } : State).enterHalt .loss :=
      State.lose_halts (hdet.trans h) (hact.trans ha) (fun e => hhalt (hst.symm.trans e))
    rw [hu]
    refine ⟨?_, fun c => by rw [State.enterHalt_chan], fun hm => State.enterHalt_notices _ _ ?_, fun hs => ⟨?_, fun c => ?_⟩,
      fun hs => ⟨?_, fun hn => ?_⟩⟩
    · rw [State.enterHalt_tb]
      dsimp only
      rw [hcount]
    · exact State.timebasePosts_timebase (s := { s with tb := seen }) hm
    · exact State.enterHalt_acquire (s := { s with tb := seen }) (hst.trans hs) .loss
    · rw [State.enterHalt_chan, if_neg (by rw [show ({ s with tb := seen } : State).tb.state = s.tb.state from hst, hs]; decide)]
      rfl
    · exact State.engineHalted_of_tb hst (State.enterHalt_engineHalted (s := { s with tb := seen })
        (Timebase.counting_of_run (by rw [hst]; exact hs)) .loss)
    · exact State.gatesHalted_of_tb (State.enterHalt_gatesHalted (s := { s with tb := seen })
        (Timebase.counting_of_run (by rw [hst]; exact hs)) hn .loss)
  · have hu : u = ({ s with tb := seen } : State).restartAcquire :=
      State.lose_restarts (hdet.trans h) (hact.trans ha) (hst.trans hs)
    rw [hu, State.restartAcquire_eq hsel]
    dsimp only [posted]
    rw [hcount]
    rfl
  · have hu : u = ({ s with tb := seen } : State).beginRelock .int .loss :=
      State.lose_relocks (hdet.trans h) (hact.trans ha) (by rw [hst]; exact hs)
    rw [hu]
    refine ⟨?_, fun hm => State.beginRelock_notice { s with tb := seen } .int .loss hm,
      State.relockBegun_of_tb hst hx (State.beginRelock_begins { s with tb := seen } .int .loss)⟩
    rw [State.beginRelock_tb]
    simp [posted, hcount, hsel, holdoverOf, Config.relockCycles]

/-- The relock onto EXT that auto-revert begins. -/
theorem State.beginRelock_ext_tb (s : State) (cause : TbCause) : (s.beginRelock .ext cause).tb =
    { s.tb with state := .relock, inForce := .ext, holdover := false, phaseTimer := some 10000
                changeCount := s.tb.changeCount + 1, lastCause := cause } := by
  have hh : holdoverOf s.tb.selected .ext = false := by simp [holdoverOf]
  rw [State.beginRelock_tb, hh]
  rfl

/-- The hundredth good window, by auto-revert. -/
theorem exec_hundredthWindow (hp : s.power = .ready) (hg : s.tb.windowGood = true) (hm : s.tb.monitor = .present)
    (hr : s.tb.runCount = 99) : exec .monitorWindowEnd s =
      .next (({ s with tb := s.tb.newWindow } : State).monitorGood).arbitrate := by
  rw [exec_windowEnd hp, if_pos hg, State.goodWindow_present (s := { s with tb := s.tb.newWindow }) hm]
  have hn : ¬(({ s with tb := s.tb.newWindow } : State).tb.runCount + 1 < 100) := by
    rw [show ({ s with tb := s.tb.newWindow } : State).tb.runCount = 99 from hr]
    decide
  rw [if_neg hn]

/-- Settles O6: a loss by action and state, and the hundredth good window. -/
theorem lossAndReturnAreHandledAsConfigured : Obligations.LossAndReturnAreHandledAsConfigured := by
  unfold Obligations.LossAndReturnAreHandledAsConfigured
  refine ⟨?_, fun s hp hm hr h1 h2 h3 hst hh => ?_⟩
  · intro s hp hm hf hsel hhalt follows
    have loses (i : Instr) (seen : Timebase)
        (hrun : exec i s = .next (({ s with tb := seen } : State).lose).arbitrate) (hsel : seen.selected = .ext)
        (hst : seen.state = s.tb.state) (hx : seen.coarse = s.tb.coarse) (hdet : seen.lossDetect = s.tb.lossDetect)
        (hact : seen.lossAction = s.tb.lossAction) (hcount : seen.changeCount = s.tb.changeCount) : follows i seen := by
      have h := s.lose_follows seen hsel hst hx hdet hact hcount hhalt
      dsimp only at h
      dsimp only [follows]
      generalize ({ s with tb := seen } : State).lose = u at hrun h
      obtain ⟨hk, hoff, hstops, hacq, hrelock⟩ := h
      refine ⟨u, hrun, hk, ?_, fun hd hm => ?_, hoff, fun hd ha => (hstops hd ha).2.1, fun hd hs => ?_,
        fun hd ha hs => (hrelock hd ha hs).2.2, fun hd ha hs => (hstops hd ha).2.2.2.2 hs⟩
      · by_cases hd : s.tb.lossDetect = false
        · rw [if_pos hd, hoff hd]
        · have hd' : s.tb.lossDetect = true := by simpa using hd
          rw [if_neg hd]
          cases ha : s.tb.lossAction with
          | halt => exact (hstops hd' ha).1
          | switch =>
            by_cases hs : s.tb.state = .acquire
            · dsimp only
              rw [if_pos hs, hacq hd' ha hs]
            · dsimp only
              rw [if_neg hs]
              exact (hrelock hd' ha (TbState.running_of hhalt hs)).1
      · cases ha : s.tb.lossAction with
        | halt => exact (hstops hd ha).2.2.1 hm
        | switch =>
          by_cases hs : s.tb.state = .acquire
          · rw [hacq hd ha hs]
            exact State.post_has hm
          · exact (hrelock hd ha (TbState.running_of hhalt hs)).2.1 hm
      · cases ha : s.tb.lossAction with
        | halt =>
          obtain ⟨hu, hch⟩ := (hstops hd ha).2.2.2.1 hs
          exact ⟨hu, fun c => (hch c).trans (if_pos rfl).symm⟩
        | switch =>
          rw [hacq hd ha hs]
          exact ⟨rfl, fun c => (if_neg (by decide)).symm⟩
    refine ⟨loses _ _ ?_ hsel rfl rfl rfl rfl rfl, fun hbad => loses _ _ ?_ hsel rfl rfl rfl rfl rfl⟩
    · exact State.event_to hp (f := Instr.effect .starvation)
        (State.monitorAbsent_lost (s := { s with tb := { s.tb with windowStarved := true } }) hm hf)
    · rw [exec_windowEnd hp, if_neg (mt (Timebase.windowGood_iff _).mp hbad)]
      exact congrArg (fun u : State => Host.Outcome.next u.arbitrate)
        (State.monitorAbsent_lost (s := { s with tb := s.tb.newWindow }) hm hf)
  · intro seen
    have hrun := exec_hundredthWindow hp ((Timebase.windowGood_iff _).mpr ⟨h1, h2, h3⟩) hm hr
    by_cases ha : s.tb.autoRevert = true
    · have hrev : ({ s with tb := s.tb.newWindow } : State).monitorGood =
          ({ s with tb := seen } : State).beginRelock .ext .revert :=
        State.monitorGood_reverts (s := { s with tb := s.tb.newWindow }) ⟨ha, hst, hh⟩
      rw [hrev] at hrun
      have hk : s.restKept (({ s with tb := seen } : State).beginRelock .ext .revert) :=
        (State.restKept.modTb s (fun _ => seen)).trans (.beginRelock _ _ _)
      have htb := ({ s with tb := seen } : State).beginRelock_ext_tb .revert
      have hbegun := State.relockBegun_of_tb (s := s) (seen := seen) rfl rfl
        (State.beginRelock_begins { s with tb := seen } .ext .revert)
      have hnotice := State.beginRelock_notice { s with tb := seen } .ext .revert
      generalize ({ s with tb := seen } : State).beginRelock .ext .revert = u at hrun hk htb hbegun hnotice
      refine ⟨_, hrun, hk, ?_, fun h => absurd (ha.symm.trans h) (by simp), fun _ => hbegun, fun _ hm => hnotice hm⟩
      rw [if_pos ha]
      exact htb
    · rw [State.monitorGood_quiet (s := { s with tb := s.tb.newWindow }) (fun h => ha h.1)] at hrun
      refine ⟨_, hrun, .modTb s (fun _ => seen), ?_, fun _ => rfl, fun h => absurd h ha, fun h => absurd h ha⟩
      exact (if_neg ha).symm

end

end Sys2Proof.Machine
end

section
/-!
TB SELECT by its table (R11), and the calibrations that the timebase aborts in leaving RUN (R69).
-/

namespace Sys2Proof.Machine

section
variable {s t u : State}

/-! ## TB SELECT (R11) -/

/-- A relock that TB SELECT begins. -/
theorem State.selectRelock (h : t.tb.state = .run) (src target : Source) :
    let u := (t.modTb (fun tb => { tb with selected := src })).beginRelock target .select
    t.restKept u ∧ t.relockBegun u ∧ u.cal = none
      ∧ (t.link.mask.timebase = true → ∃ e ∈ u.link.noticeQueue, e.key = .timebase) := by
  refine ⟨(State.restKept.modTb t _).trans (.beginRelock _ _ _), ?_, ?_, fun hm => State.beginRelock_notice _ target .select hm⟩
  · exact State.relockBegun_of_tb (s := t) (seen := { t.tb with selected := src }) rfl rfl (State.beginRelock_begins _ target .select)
  · rw [State.beginRelock_cal]
    exact if_pos h

theorem tbSelectBody_run {b : Byte} {src : Source} (hb : readSource b = some src) (hs : t.tb.state = .run) :
    tbSelectBody [b] t = t.selectInRun src := by
  unfold tbSelectBody
  simp only [arg, List.getD_cons_zero, hb, hs]

theorem tbSelectBody_halt {b : Byte} {src : Source} (hb : readSource b = some src) (hs : t.tb.state = .halt) :
    tbSelectBody [b] t = (t.modTb (fun tb => { tb with selected := src })).ackSnapshot := by
  unfold tbSelectBody
  simp only [arg, List.getD_cons_zero, hb, hs]

theorem tbSelectBody_busy {b : Byte} {src : Source} (hb : readSource b = some src)
    (hs : t.tb.state = .acquire ∨ t.tb.state = .relock) : tbSelectBody [b] t = (t, Answer.refuse .busy) := by
  unfold tbSelectBody
  rcases hs with hs | hs <;> simp only [arg, List.getD_cons_zero, hb, hs]

theorem tbSelectBody_invalid {b : Byte} (hb : readSource b = none) : tbSelectBody [b] t = (t, Answer.invalid 1) := by
  unfold tbSelectBody
  simp only [arg, List.getD_cons_zero, hb]

theorem readSource_of {b : Byte} (h : b = 1 ∨ b = 2) : readSource b = some (if b = 1 then .ext else .int) := by
  rcases h with rfl | rfl <;> rfl

/-- Settles O11: each row of the table. -/
theorem tbSelectFollowsItsTable : Obligations.TbSelectFollowsItsTable := by
  unfold Obligations.TbSelectFollowsItsTable
  intro s b hex t answers posted
  have htb : t.tb = s.tb := State.taken_tb s _
  have hmask : t.link.mask = s.link.mask := State.taken_mask s _
  have run {v : State} {a : Answer} (h : tbSelectBody [b] t = (v, a)) : answers v a :=
    exec_body (i := .tbSelect [b]) rfl rfl rfl hex h
  have hack : t.ackSnapshot = (t, Answer.ack s.tb.snapshot) := by
    unfold State.ackSnapshot
    rw [htb]
  have runs {src : Source} {v : State} {a : Answer} (hb : readSource b = some src) (hs : s.tb.state = .run)
      (h : t.selectInRun src = (v, a)) : answers v a :=
    run ((tbSelectBody_run hb (by rw [htb]; exact hs)).trans h)
  have relock {src target : Source} (hb : readSource b = some src) (hs : s.tb.state = .run)
      (hsel : t.selectInRun src = ((t.modTb (fun tb => { tb with selected := src })).beginRelock target .select).ackSnapshot) :
      let u := (t.modTb (fun tb => { tb with selected := src })).beginRelock target .select
      answers u (Answer.ack u.tb.snapshot) ∧ t.restKept u ∧ t.relockBegun u ∧ u.cal = none
        ∧ (s.link.mask.timebase = true → ∃ e ∈ u.link.noticeQueue, e.key = .timebase) := by
    obtain ⟨h1, h2, h3, h4⟩ := State.selectRelock (htb ▸ hs) src target
    exact ⟨runs hb hs hsel, h1, h2, h3, by rw [← hmask]; exact h4⟩
  refine ⟨fun h1 h2 => run (tbSelectBody_invalid ((readSource_eq_none_iff b).mpr ⟨h1, h2⟩)), fun hb hs => ?_, fun hb hs => ?_,
    fun hb hs hf => ?_, fun hb hs hf hm => ?_, fun hb hs hf hm => ?_, fun hb hs hf => ?_, fun hb hs hf hh => ?_,
    fun hb hs hf hh => ?_⟩
  · have h := run (tbSelectBody_halt (readSource_of hb) (by rw [htb]; exact hs))
    unfold State.modTb at h
    rw [htb] at h
    exact h
  · exact run (tbSelectBody_busy (readSource_of hb) (by rw [htb]; exact hs))
  · refine runs (src := .ext) (by rw [hb]; rfl) hs ?_
    rw [State.selectInRun_ext_inForce (by rw [htb]; exact hf), hack]
  · have hne : t.tb.inForce ≠ .ext := by
      rw [htb, hf]
      decide
    refine runs (src := .ext) (by rw [hb]; rfl) hs ?_
    rw [State.selectInRun_ext hne, htb, if_neg hm]
  · have hne : t.tb.inForce ≠ .ext := by
      rw [htb, hf]
      decide
    obtain ⟨h1, h2⟩ := relock (src := .ext) (target := .ext) (by rw [hb]; rfl) hs (by
      rw [State.selectInRun_ext hne, htb, if_pos hm])
    refine ⟨_, h1, ?_, h2⟩
    rw [State.beginRelock_ext_tb, State.modTb_tb, htb]
  · obtain ⟨h1, h2⟩ := relock (src := .int) (target := .int) (by rw [hb]; rfl) hs
      (State.selectInRun_int_of_ext (by rw [htb]; exact hf))
    refine ⟨_, h1, ?_, h2⟩
    rw [State.beginRelock_tb, State.modTb_tb, htb]
    rfl
  · have hne : t.tb.inForce ≠ .ext := by
      rw [htb, hf]
      decide
    refine runs (src := .int) (by rw [hb]; rfl) hs ?_
    rw [State.selectInRun_int hne, htb, if_pos hh]
    unfold State.ackSnapshot State.postTimebase State.modTb
    rw [htb]
    rfl
  · have hne : t.tb.inForce ≠ .ext := by
      rw [htb, hf]
      decide
    refine runs (src := .int) (by rw [hb]; rfl) hs ?_
    rw [State.selectInRun_int hne, htb, if_neg (by simp [hh]), hack]

/-! ## Calibrations aborted (R69) -/

/-- From `s` to `u` the calibration `r` is aborted by the timebase. -/
def State.aborts (s u : State) (r : CalRun) : Prop :=
  u.cal = none
  ∧ (∃ dead, u.chan r.chan = { s.chan r.chan with
      deadEnd := dead, attempt := { (s.chan r.chan).attempt with outcome := .timebase } })
  ∧ (s.link.mask.cal = true → ∃ e ∈ u.link.noticeQueue, e.key = .cal r.chan)

theorem State.dropCal_own {r : CalRun} (hc : s.cal = some r) (outcome : CalOutcome) : (s.dropCal outcome).chan r.chan =
    { s.chan r.chan with attempt := { (s.chan r.chan).attempt with outcome := outcome } } := by
  have hcal : s.calibrates r.chan = true := by
    unfold State.calibrates
    rw [hc]
    exact decide_eq_true rfl
  rw [State.dropCal_chan, if_pos hcal]

theorem State.beginRelock_aborts {r : CalRun} (hc : s.cal = some r) (hs : s.tb.state = .run) (target : Source)
    (cause : TbCause) : s.aborts (s.beginRelock target cause) r := by
  refine ⟨?_, ⟨(s.chan r.chan).deadEnd, ?_⟩, fun hm => ?_⟩
  · rw [State.beginRelock_cal]
    exact if_pos hs
  · rw [State.beginRelock_chan, if_pos hs, State.dropCal_own hc]
  · obtain ⟨-, -, hlink⟩ := s.beginRelock_begins target cause
    rw [hlink]
    exact State.timebasePosts_cal hc hs hm

theorem State.enterHalt_aborts {r : CalRun} (hc : s.cal = some r) (hs : s.tb.state = .run) (cause : TbCause) :
    s.aborts (s.enterHalt cause) r := by
  refine ⟨?_, ⟨none, ?_⟩, fun hm => State.enterHalt_notices s cause (State.timebasePosts_cal hc hs hm)⟩
  · rw [State.enterHalt_cal]
    exact if_pos hs
  · rw [State.enterHalt_chan, if_pos hs, State.dropCal_own hc]

theorem State.aborts_of_tb {r : CalRun} {seen : Timebase} (h : ({ s with tb := seen } : State).aborts u r) : s.aborts u r :=
  ⟨h.1, h.2.1, h.2.2⟩

/-- A relock out of RUN, the monitor's part of the timebase being as in `seen`. -/
theorem State.beginRelock_seen {r : CalRun} {seen : Timebase} (hc : s.cal = some r) (hrun : s.tb.state = .run)
    (hst : seen.state = s.tb.state) (hx : seen.coarse = s.tb.coarse) (target : Source) (cause : TbCause) :
    let u := ({ s with tb := seen } : State).beginRelock target cause
    u.tb.state = .relock ∧ s.restKept u ∧ s.relockBegun u ∧ s.aborts u r :=
  ⟨by rw [State.beginRelock_tb], (State.restKept.modTb s (fun _ => seen)).trans (.beginRelock _ _ _),
    State.relockBegun_of_tb hst hx (State.beginRelock_begins { s with tb := seen } target cause),
    State.aborts_of_tb (State.beginRelock_aborts (s := { s with tb := seen }) hc (hst.trans hrun) target cause)⟩

/-- Settles O12: by TB STOP, TB SELECT, a loss, and auto-revert. -/
theorem leavingRunAbortsCalibration : Obligations.LeavingRunAbortsCalibration := by
  unfold Obligations.LeavingRunAbortsCalibration
  intro s r hcal hrun aborted goodWindow
  have abort (v u : State) (hch : v.chan r.chan = s.chan r.chan) (hmask : v.link.mask = s.link.mask)
      (h : v.aborts u r) : aborted u := by
    obtain ⟨hnone, ⟨dead, hu⟩, hn⟩ := h
    rw [hch] at hu
    rw [hmask] at hn
    exact ⟨hnone, by rw [hu], by rw [hu], by rw [hu], by rw [hu], by rw [hu], by rw [hu], by rw [hu], hn⟩
  refine ⟨fun hex => ?_, fun b hex hb => ?_, fun i hp hm hf hdet hi => ?_, fun hp hg hm hr hh ha => ?_⟩
  · have hts : (s.taken [0x12]).tb.state = .run := by
      rw [State.taken_tb]
      exact hrun
    have hbody : tbStopBody (s.taken [0x12]) = ((s.taken [0x12]).enterHalt .stop).ackSnapshot :=
      if_neg (by rw [hts]; decide)
    exact ⟨_, exec_body (i := .tbStop []) rfl rfl rfl hex hbody, by rw [State.enterHalt_tb],
      .enterHalt _ _, abort (s.taken [0x12]) _ (State.taken_chan ..) (State.taken_mask ..)
        (State.enterHalt_aborts ((State.taken_cal ..).trans hcal) hts .stop)⟩
  · have hts : (s.taken [0x13, b]).tb.state = .run := by
      rw [State.taken_tb]
      exact hrun
    have relocks (src target : Source) (hsrc : readSource b = some src)
        (hsel : (s.taken [0x13, b]).selectInRun src =
          (((s.taken [0x13, b]).modTb (fun tb => { tb with selected := src })).beginRelock target .select).ackSnapshot) :
        ∃ u : State, exec (.tbSelect [b]) s = .next (u.reply 0x13 (Answer.ack u.tb.snapshot)).arbitrate
          ∧ u.tb.state = .relock ∧ (s.taken [0x13, b]).restKept u ∧ (s.taken [0x13, b]).relockBegun u ∧ aborted u := by
      obtain ⟨h1, h2, -⟩ := State.selectRelock hts src target
      exact ⟨_, exec_body (i := .tbSelect [b]) rfl rfl rfl hex ((tbSelectBody_run hsrc hts).trans hsel),
        by rw [State.beginRelock_tb], h1, h2, abort _ _ (State.taken_chan ..) (State.taken_mask ..)
          (State.beginRelock_aborts (s := (s.taken [0x13, b]).modTb (fun tb => { tb with selected := src }))
            ((State.taken_cal ..).trans hcal) hts target .select)⟩
    rcases hb with ⟨rfl, hf, hm⟩ | ⟨rfl, hf⟩
    · refine relocks .ext .ext rfl ?_
      rw [State.selectInRun_ext (by rw [State.taken_tb, hf]; decide), State.taken_tb, if_pos hm]
    · exact relocks .int .int rfl (State.selectInRun_int_of_ext (by rw [State.taken_tb]; exact hf))
  · have hloses : ∃ seen : Timebase, exec i s = .next (({ s with tb := seen } : State).lose).arbitrate
        ∧ seen.state = s.tb.state ∧ seen.coarse = s.tb.coarse ∧ seen.lossDetect = s.tb.lossDetect
        ∧ seen.lossAction = s.tb.lossAction := by
      rcases hi with rfl | ⟨rfl, hbad⟩
      · exact ⟨_, State.event_to hp (f := Instr.effect .starvation)
          (State.monitorAbsent_lost (s := { s with tb := { s.tb with windowStarved := true } }) hm hf), rfl, rfl, rfl, rfl⟩
      · refine ⟨{ s.tb.newWindow with monitor := .absent, runCount := 0 }, ?_, rfl, rfl, rfl, rfl⟩
        rw [exec_windowEnd hp, if_neg (mt (Timebase.windowGood_iff _).mp hbad)]
        exact congrArg (fun u : State => Host.Outcome.next u.arbitrate)
          (State.monitorAbsent_lost (s := { s with tb := s.tb.newWindow }) hm hf)
    obtain ⟨seen, hexec, hst, hx, hdet', hact⟩ := hloses
    have hvs : ({ s with tb := seen } : State).tb.state = .run := hst.trans hrun
    refine ⟨fun ha => ?_, fun ha => ?_⟩
    · have hl := State.lose_relocks (s := { s with tb := seen }) (hdet'.trans hdet) (hact.trans ha) (.inl hvs)
      obtain ⟨h1, h2, h3, h4⟩ := State.beginRelock_seen hcal hrun hst hx .int .loss
      rw [hl] at hexec
      exact ⟨_, hexec, h1, h2, h3, abort s _ rfl rfl h4⟩
    · have hl := State.lose_halts (s := { s with tb := seen }) (hdet'.trans hdet) (hact.trans ha) (by rw [hvs]; decide)
      have h1 := State.enterHalt_tb { s with tb := seen } .loss
      have h2 := (State.restKept.modTb s (fun _ => seen)).trans (.enterHalt _ .loss)
      have h3 := State.aborts_of_tb (State.enterHalt_aborts (s := { s with tb := seen }) hcal hvs .loss)
      rw [hl] at hexec
      exact ⟨_, hexec, by rw [h1], h2, abort s _ rfl rfl h3⟩
  · have hexec := exec_hundredthWindow hp ((Timebase.windowGood_iff _).mpr hg) hm hr
    have hrev : ({ s with tb := s.tb.newWindow } : State).monitorGood =
        ({ s with tb := { s.tb.newWindow with monitor := .good, runCount := 100 } } : State).beginRelock .ext .revert :=
      State.monitorGood_reverts (s := { s with tb := s.tb.newWindow }) ⟨ha, hrun, hh⟩
    obtain ⟨h1, h2, h3, h4⟩ := State.beginRelock_seen (seen := { s.tb.newWindow with monitor := .good, runCount := 100 })
      hcal hrun rfl rfl .ext .revert
    rw [hrev] at hexec
    generalize ({ s with tb := { s.tb.newWindow with monitor := .good, runCount := 100 } } : State).beginRelock .ext .revert
      = u at hexec h1 h2 h3 h4
    exact ⟨_, hexec, h1, h2, h3, abort s _ rfl rfl h4⟩

end

end Sys2Proof.Machine
end

section
/-!
TB STOP (R10, R92, R100): the timebase halts, the waiting records are formed, and running gates return to WAIT_ARM.
-/

namespace Sys2Proof.Machine

section
variable {s t u v : State} {g : Desc} {d : Descriptor} {k : GateCtx} {e : CloseEvent}

/-! ## One waiting TOTALIZE record at the entry into HALT (R92) -/

theorem State.openGate_running (s : State) (g : Desc) (st : Option Stamp) (m : Sample) :
    ((s.openGate g st m).desc g).running = true := by
  unfold State.openGate
  rw [State.desc_modDesc_self]
  unfold Descriptor.running
  dsimp only
  split_ifs <;> rfl

/-- A descriptor that goes on runs. -/
theorem State.goOn_running (s : State) (g : Desc) (e : CloseEvent) : ((s.goOn g e).desc g).running = true := by
  rcases s.goOn_cases g e with h | h | h <;> rw [h]
  · rw [State.enterArmed_desc (.refl _)]
    rfl
  · exact s.openGate_running g _ _
  · exact s.openGate_running g _ _

theorem foldl_unchanged {α β : Type} {f : β → α → β} {b : β} : ∀ {l : List α}, (∀ a ∈ l, f b a = b) → l.foldl f b = b
  | [], _ => rfl
  | a :: l, h => by
    rw [List.foldl_cons, h a List.mem_cons_self]
    exact foldl_unchanged fun x hx => h x (List.mem_cons_of_mem _ hx)

/-- A loop over the descriptors in which one round alone acts. -/
theorem State.forEight_single {f : Desc → State → State} {w : State} (hw : f g s = w) (hbefore : ∀ h, h ≠ g → f h s = s)
    (hafter : ∀ h, h ≠ g → f h w = w) : s.forEight f = w := by
  obtain ⟨before, after, hl⟩ := List.append_of_mem (mem_allEight g)
  have hnodup : (before ++ g :: after).Nodup := hl ▸ (by decide : allEight.Nodup)
  have hb : ∀ h ∈ before, h ≠ g := fun h hh e =>
    (List.nodup_append.mp hnodup).2.2 h hh g List.mem_cons_self e
  have ha : ∀ h ∈ after, h ≠ g := fun h hh e =>
    (List.nodup_cons.mp (List.nodup_append.mp hnodup).2.1).1 (e ▸ hh)
  unfold State.forEight
  rw [hl, List.foldl_append, foldl_unchanged (fun h hh => hbefore h (hb h hh)), List.foldl_cons, hw]
  exact foldl_unchanged fun h hh => hafter h (ha h hh)

/-- Postings in a loop, by the link alone. -/
theorem State.gatePosts_link {p q : Desc → Bool} (h : ∀ g, p g = q g) : ∀ (l : List Desc) {v w : State}, v.link = w.link →
    (l.foldl (fun u g => if p g then u.post (.gate g) else u) v).link =
      (l.foldl (fun u g => if q g then u.post (.gate g) else u) w).link
  | [], _, _, hl => hl
  | g :: l, v, w, hl => by
    refine State.gatePosts_link h l ?_
    dsimp only
    rw [h g]
    split
    · exact State.post_link_congr hl _
    · exact hl

/-- The record that waits at `g`, and no other, is formed with the timebase in HALT. -/
theorem State.haltStage_single (hcount : s.tb.counting = false) (hother : ∀ h, h ≠ g → (s.desc h).closeEvent = none)
    (he : (s.desc g).closeEvent = some e) (hk : (s.desc g).ctx = some k) (hdef : (s.desc g).deferred = []) {r : Record}
    (hr : formRecord g (s.desc g) k e = r) :
    s.publishes (s.haltStage 8) g r
    ∧ (∀ h, h ≠ g → (s.haltStage 8).desc h = s.desc h)
    ∧ s.goesOn (s.haltStage 8) g { s.desc g with deferred := [] } (fun a b => a.sameBut b ∧ b.running = true) := by
  have hform := State.conclude_forms hk hr (again := fun a b => a.sameBut b ∧ b.running = true)
    (fun v a _ ha _ => ⟨ha.trans (v.goOn_sameBut g e), v.goOn_running g e⟩)
  dsimp only at hform
  have hcount' := ((EngineOnly.modDesc s g (fun d => { d with deferred := [] })).trans (.conclude _ g e)).tb
  have hf : s.formAtHalt g ((s.desc g).deferred.length + 1) =
      (s.modDesc g (fun d => { d with deferred := [] })).conclude g e := by
    rw [hdef]
    unfold State.formAtHalt
    rw [if_pos (by simp [he]), State.formation_eq he, hdef]
    rfl
  generalize (s.modDesc g (fun d => { d with deferred := [] })).conclude g e = w at hform hf hcount'
  obtain ⟨hpub, hchain, hgoes⟩ := hform
  have hkeep (h : Desc) (hne : h ≠ g) : w.desc h = s.desc h := by
    have hc := hchain h hne
    rwa [if_neg (fun k => absurd (k.2.2.1) (by rw [hcount', hcount]; decide))] at hc
  have idle (x : State) (h : Desc) (hx : (x.desc h).closeEvent = none) :
      x.formAtHalt h ((x.desc h).deferred.length + 1) = x := by
    unfold State.formAtHalt
    rw [hx]
    rfl
  have hstage : s.haltStage 8 = w := by
    rw [State.haltStage_eight]
    exact State.forEight_single hf (fun h hne => idle s h (hother h hne))
      (fun h hne => idle w h (by rw [hkeep h hne]; exact hother h hne))
  rw [hstage]
  exact ⟨hpub, hkeep, hgoes⟩

/-- Descriptor `g` of the one record, at the end of the entry into HALT. -/
theorem Descriptor.halted_goesOn {b : Descriptor} (hgoes : u.goesOn v g d (fun a b => a.sameBut b ∧ b.running = true))
    (hb : v.desc g = b) (hp : d.commitPending = false) (hfn : d.active.fn ≠ .none) (hdef : d.deferred = []) :
    b.running = (d.active.continuous && !d.lastGate)
    ∧ b.halted =
      if d.active.continuous = true ∧ d.lastGate = false then
        { d with state := .waitArm, gateNumber := d.gateNumber + 1, ctx := none, timeoutAt := none
                 closeEvent := none, noticeCount := d.noticeCount + 1, lastReason := .timebase }
      else
        { d with state := .off, gateNumber := d.gateNumber + 1, ctx := none, timeoutAt := none
                 closeEvent := none, lastGate := false } := by
  have hact : d.afterGate.active = d.active := by
    show (if d.commitPending then d.staged else d.active) = d.active
    rw [hp]
    rfl
  have hafter : d.afterGate = { d with
      gateNumber := d.gateNumber + 1, ctx := none, timeoutAt := none, closeEvent := none } := by
    unfold Descriptor.afterGate
    rw [show (if d.commitPending then d.staged else d.active) = d.active from hact]
    rw [← hp]
  rw [State.goesOn_iff, hb, hact, hafter] at hgoes
  by_cases hc : d.active.continuous = true ∧ d.lastGate = false
  · rw [if_pos hc, if_pos ((GateCopy.continues_iff ..).mpr ⟨rfl, rfl, rfl, rfl⟩)] at hgoes
    obtain ⟨hsame, hrun⟩ := hgoes
    refine ⟨by rw [hrun]; simp [hc], ?_⟩
    rw [if_pos hc]
    unfold Descriptor.halted
    rw [if_pos hrun, hsame]
    dsimp only
    rw [hp, if_neg Bool.false_ne_true, if_neg hfn, ← hdef]
  · rw [if_neg hc] at hgoes
    have hrun : b.running = false := by
      rw [hgoes]
      rfl
    refine ⟨hrun.trans (Bool.eq_false_iff.mpr (by simpa using hc)).symm, ?_⟩
    rw [if_neg hc]
    unfold Descriptor.halted
    rw [if_neg (by simp [hrun]), hgoes]

/-- The entry into HALT with one record waiting, of a gate without a pending commit. -/
theorem State.enterHalt_single (hcount : s.tb.counting = true) (hother : ∀ h, h ≠ g → (s.desc h).closeEvent = none)
    (he : (s.desc g).closeEvent = some e) (hk : (s.desc g).ctx = some k) (hdef : (s.desc g).deferred = [])
    (hp : (s.desc g).commitPending = false) (hfn : (s.desc g).active.fn ≠ .none) {r : Record}
    (hr : formRecord g (s.desc g) k e = r) (cause : TbCause) :
    let d := s.desc g
    let u := s.enterHalt cause
    s.stores u g r
    ∧ u.link = (([0, 1, 2, 3, 4, 5, 6, 7] : List Desc).foldl (fun w h =>
        if (if h = g then d.active.continuous && !d.lastGate else (s.desc h).running) = true then w.post (.gate h) else w)
        (if (s.slot d.active.slot).held then s.timebasePosts else s.timebasePosts.post (.result d.active.slot))).link
    ∧ (∀ h : Desc, h ≠ g → u.desc h = (s.desc h).halted)
    ∧ u.desc g =
      if d.active.continuous = true ∧ d.lastGate = false then
        { d with state := .waitArm, gateNumber := d.gateNumber + 1, ctx := none, timeoutAt := none
                 closeEvent := none, noticeCount := d.noticeCount + 1, lastReason := .timebase }
      else
        { d with state := .off, gateNumber := d.gateNumber + 1, ctx := none, timeoutAt := none
                 closeEvent := none, lastGate := false } := by
  intro d u
  have hu : u = (s.haltStart cause).haltDescs := State.enterHalt_counting hcount cause
  have hvdesc (h : Desc) : (s.haltStart cause).desc h = s.desc h := by
    unfold State.desc
    rw [s.haltStart_descs cause]
  have hvslot (j : SlotId) : (s.haltStart cause).slot j = s.slot j := by
    unfold State.slot
    rw [s.haltStart_slots cause]
  have hvlink := s.haltStart_link cause
  have hvcount : (s.haltStart cause).tb.counting = false := by
    have htb : (s.haltStart cause).tb = u.tb := by
      rw [hu]
      exact (EngineOnly.haltDescs _).tb.symm
    rw [htb, State.enterHalt_tb]
    rfl
  generalize s.haltStart cause = v at hu hvdesc hvslot hvlink hvcount
  obtain ⟨⟨⟨hnum, hslots, hslot⟩, hlink⟩, hkeep, hgoes⟩ := State.haltStage_single (s := v) (g := g) hvcount
    (fun h hne => by rw [hvdesc]; exact hother h hne) (by rw [hvdesc]; exact he) (by rw [hvdesc]; exact hk)
    (by rw [hvdesc]; exact hdef) (r := r) (by rw [hvdesc]; exact hr)
  rw [State.haltDescs_eq] at hu
  obtain ⟨⟨huslots, hudesc⟩, hulink⟩ := (v.haltStage 8).returnToWait_gatesHalted
  rw [← hu] at huslots hudesc hulink
  generalize v.haltStage 8 = w at hnum hslots hslot hlink hkeep hgoes huslots hudesc hulink
  have huslot (j : SlotId) : u.slot j = w.slot j := by
    unfold State.slot
    rw [huslots]
  have hself : ({ s.desc g with deferred := [] } : Descriptor) = s.desc g := by rw [← hdef]
  rw [hvdesc, hself] at hgoes
  obtain ⟨hrun, hown⟩ := Descriptor.halted_goesOn hgoes rfl hp hfn hdef
  rw [← (hudesc g).1] at hown
  refine ⟨⟨?_, fun j hj => ?_, ?_⟩, ?_, fun h hne => ?_, hown⟩
  · rw [hown]
    split_ifs <;> rfl
  · rw [huslot, hslots j (by rw [hvdesc]; exact hj), hvslot]
  · rw [huslot]
    rw [hvdesc, hvslot] at hslot
    exact hslot
  · rw [hulink]
    refine State.gatePosts_link (fun h => ?_) _ ?_
    · by_cases e : h = g
      · rw [if_pos e, e]
        exact hrun
      · rw [if_neg e, hkeep h e, hvdesc]
    · rw [hlink, hvdesc, hvslot]
      split
      · exact hvlink
      · exact State.post_link_congr hvlink _
  · rw [(hudesc h).1, hkeep h hne, hvdesc]

/-! ## TB STOP (R10) -/

/-- Settles O10: in HALT, from ACQUIRE, and from RUN and RELOCK with the records that wait. -/
theorem tbStopHaltsTimebaseAndGates : Obligations.TbStopHaltsTimebaseAndGates := by
  unfold Obligations.TbStopHaltsTimebaseAndGates
  refine ⟨?_, ?_⟩
  · intro s hex t
    have htb : t.tb = s.tb := State.taken_tb s _
    refine ⟨fun h => ?_, fun h => ?_⟩
    · have hbody : tbStopBody t = (t, Answer.ack s.tb.snapshot) := by
        unfold tbStopBody State.ackSnapshot
        rw [htb, if_pos h]
      exact exec_body (i := .tbStop []) rfl rfl rfl hex hbody
    · have hbody : tbStopBody t = (t.enterHalt .stop).ackSnapshot := if_neg (by rw [htb]; exact h)
      refine ⟨_, exec_body (i := .tbStop []) rfl rfl rfl hex hbody, ?_, .enterHalt t .stop, fun c => ?_, fun hm => ?_,
        fun ha => ⟨fun c => ?_, State.enterHalt_acquire (by rw [htb]; exact ha) .stop⟩⟩
      · rw [State.enterHalt_tb, htb]
      · rw [State.enterHalt_chan]
      · exact State.enterHalt_notices t .stop (State.timebasePosts_timebase (by rw [State.taken_mask]; exact hm))
      · rw [State.enterHalt_chan, if_neg (by rw [htb, ha]; decide), State.taken_chan]
  · intro s hex hrun
    have htb : (s.taken [0x12]).tb = s.tb := State.taken_tb s _
    have hcount : (s.taken [0x12]).tb.counting = true := Timebase.counting_of_run (by rw [htb]; exact hrun)
    have hbody : tbStopBody (s.taken [0x12]) = ((s.taken [0x12]).enterHalt .stop).ackSnapshot :=
      if_neg (by rw [htb]; rcases hrun with h | h <;> rw [h] <;> decide)
    have hexec := exec_body (i := .tbStop []) rfl rfl rfl hex hbody
    have hdesc (g : Desc) : (s.taken [0x12]).desc g = s.desc g := State.taken_desc s _ g
    refine ⟨fun hn => ⟨_, hexec, ?_⟩, ⟨_, hexec, by rw [State.enterHalt_tb], State.enterHalt_engineHalted hcount .stop⟩, ?_⟩
    · obtain ⟨hslots, hgates⟩ := State.enterHalt_gatesHalted hcount (fun g => by rw [hdesc]; exact hn g) .stop
      refine ⟨hslots.trans (State.taken_slots s _), fun g => ?_⟩
      have hg := hgates g
      rw [hdesc, State.taken_mask] at hg
      exact hg
    · intro g k e c hother he hk hdef hfn hprimary ho hs hc hp d
      have hrec := formRecord_totalize (g := g) (d := s.desc g) hfn hprimary ho hs hc
      obtain ⟨hst, hlink, hhalted, hown⟩ := State.enterHalt_single (s := s.taken [0x12]) (g := g) (k := k) (e := e) hcount
        (fun h hne => by rw [hdesc]; exact hother h hne) (by rw [hdesc]; exact he) (by rw [hdesc]; exact hk)
        (by rw [hdesc]; exact hdef) (by rw [hdesc]; exact hp) (by rw [hdesc, hfn]; decide) (r := formRecord g (s.desc g) k e)
        (by rw [hdesc]) .stop
      refine ⟨_, hexec, ?_, ?_, fun h hne => (hhalted h hne).trans (by rw [hdesc]), ?_⟩
      · obtain ⟨h1, h2, h3⟩ := hst
        simp only [hdesc, State.taken_slot, hrec] at h1 h2 h3
        exact ⟨h1, h2, h3⟩
      · simp only [hdesc, State.taken_slot] at hlink
        exact hlink
      · rw [hdesc] at hown
        exact hown

end

end Sys2Proof.Machine
end

section
/-!
The hits of a calibration, its deadline, and the judgement of a complete histogram (R62, R64 to R68, R72).
-/

namespace Sys2Proof.Machine

section
variable {s t u v : State} {g : Desc} {r : CalRun} {b : Bin}

/-! ## The end of a calibration (R67 to R69, R72) -/

/-- What the end of a calibration does. -/
theorem State.endCal_ends (h : s.cal = some r) (outcome : CalOutcome) :
    let u := s.endCal outcome
    u = { s with chans := u.chans, cal := none, descs := u.descs
                 link := { s.link with noticeQueue := u.link.noticeQueue } }
    ∧ (∀ c : Chan, u.chan c = if c = r.chan then
        { s.chan c with attempt := { (s.chan c).attempt with outcome := outcome } } else s.chan c)
    ∧ s.judged u s.tb.coarse
    ∧ u.link = (s.post (.cal r.chan)).link
    ∧ (s.link.mask.cal = true → ∃ e ∈ u.link.noticeQueue, e.key = .cal r.chan) := by
  intro u
  have hlink : u.link = (s.post (.cal r.chan)).link := State.endCal_link_some h outcome
  have hchan (c : Chan) : u.chan c = if c = r.chan then
      { s.chan c with attempt := { (s.chan c).attempt with outcome := outcome } } else s.chan c := by
    have hcal : s.calibrates c = decide (r.chan = c) := by
      unfold State.calibrates
      rw [h]
    rw [State.endCal_chan, State.dropCal_chan, hcal]
    by_cases e : c = r.chan
    · rw [if_pos (by simp [e]), if_pos e]
    · rw [if_neg (by simpa [eq_comm] using e), if_neg e]
  have hu := State.endCal_of_some h outcome
  have hj := ((s.dropCal outcome).post (.cal r.chan)).judgeAll_judged
  have heq := ((s.dropCal outcome).post (.cal r.chan)).judgeAll_eq
  rw [← hu] at hj heq
  have hrest : ((s.dropCal outcome).post (.cal r.chan)) = { s with
      chans := (s.dropCal outcome).chans, cal := none
      link := (s.post (.cal r.chan)).link } := by
    have hl := State.post_link_congr (s.dropCal_link outcome) (.cal r.chan)
    rw [← hl]
    exact congrArg (fun v : State => { v with link := ((s.dropCal outcome).post (.cal r.chan)).link }) (s.dropCal_eq outcome)
  refine ⟨?_, hchan, fun g => ?_, hlink, fun hm => ?_⟩
  · have hq : (s.post (.cal r.chan)).link = { s.link with noticeQueue := u.link.noticeQueue } := by
      rw [hlink]
      exact (EngineOnly.post s _).link
    have hchans : u.chans = (s.dropCal outcome).chans := by
      rw [show u = _ from heq]
      rfl
    rw [← hq, hchans]
    exact heq.trans (by rw [hrest])
  · have hd : ((s.dropCal outcome).post (.cal r.chan)).desc g = s.desc g := s.dropCal_desc outcome g
    have htb : ((s.dropCal outcome).post (.cal r.chan)).tb = s.tb := s.dropCal_tb outcome
    have hg := hj g
    rw [htb] at hg
    exact (State.judgesAt_congr hd rfl (fun _ => rfl) (fun _ => rfl) rfl).mp hg
  · rw [hlink]
    exact State.post_has hm

/-! ## A hit (R62) -/

theorem Channel.hit_eq (ch : Channel) (b : Bin) : ch.hit b = { ch with
    histogram := ch.histogram.set b.val (ch.histogram[b] + 1) b.isLt
    attempt := { ch.attempt with
      hits := ch.attempt.hits + 1
      spanFound := if ch.attempt.spanFound < b.val + 1 then b.val + 1 else ch.attempt.spanFound } } := by
  have hmax : max ch.attempt.spanFound (b.val + 1) =
      if ch.attempt.spanFound < b.val + 1 then b.val + 1 else ch.attempt.spanFound := by
    split <;> omega
  unfold Channel.hit
  rw [hmax]

theorem Timebase.movedTo_closing {tb : Timebase} {x : Coarse} (h : tb.ticked = true ∨ x ≠ tb.coarse) :
    tb.movedTo x = { tb with coarse := x, ticked := true } := by
  have ht : (tb.ticked || decide (x ≠ tb.coarse)) = true := by simpa using h
  unfold Timebase.movedTo
  rw [ht]

theorem State.atCount_closing {x : Coarse} (h : s.tb.ticked = true ∨ x ≠ s.tb.coarse) :
    s.atCount x = { s with tb := { s.tb with coarse := x, ticked := true } } := by
  rw [← Timebase.movedTo_closing h]
  rfl

/-- A hit at its tick, the counter coming to it with nothing on the way. -/
theorem exec_calHit (hp : s.power = .ready) (hc : s.cal = some r) (hrun : s.tb.state = .run) {tick : Coarse}
    (ht : s.tb.ticked = true ∨ tick ≠ s.tb.coarse) (hx : s.comesTo tick) (b : Bin) :
    exec (.calHit tick b) s =
      .next (({ s with tb := { s.tb with coarse := tick, ticked := true } } : State).takeHit b).arbitrate := by
  refine State.event_to hp (f := Instr.effect (.calHit tick b)) ?_
  have hcloses : (s.cal.isSome && s.tb.closesAt tick) = true := by
    rw [hc]
    simpa [Timebase.closesAt, Timebase.counting_of_run (.inl hrun)] using ht
  refine (if_pos hcloses).trans ?_
  rw [hx.advanceTo, State.atCount_closing ht]

theorem State.takeHit_counts (hc : s.cal = some r) (hn : (s.chan r.chan).attempt.hits + 1 < 65536) (b : Bin) :
    s.takeHit b = s.modChan r.chan (fun ch => ch.hit b) := by
  unfold State.takeHit
  rw [hc]
  dsimp only
  rw [State.chan_modChan_self]
  exact if_neg (by show ¬(65536 ≤ (s.chan r.chan).attempt.hits + 1); omega)

theorem State.takeHit_judges (hc : s.cal = some r) (hn : (s.chan r.chan).attempt.hits = 65535) (b : Bin) :
    s.takeHit b = (s.modChan r.chan (fun ch => ch.hit b)).judgeCal r.chan := by
  unfold State.takeHit
  rw [hc]
  dsimp only
  rw [State.chan_modChan_self]
  exact if_pos (by show 65536 ≤ (s.chan r.chan).attempt.hits + 1; omega)

/-- Settles O21: a hit, and the deadline. -/
theorem calibrationHitsCountAndTheDeadlineEnds : Obligations.CalibrationHitsCountAndTheDeadlineEnds := by
  unfold Obligations.CalibrationHitsCountAndTheDeadlineEnds
  refine ⟨fun s tick b hp => ⟨fun hc => ?_, fun r hc hrun ht hx hn => ?_⟩, fun s hp => ⟨fun hc => ?_, fun r hc hrun hx => ?_⟩⟩
  · exact State.event_to hp (f := Instr.effect (.calHit tick b)) (if_neg (by simp [hc]))
  · have hexec := exec_calHit hp hc hrun ht hx b
    rw [State.takeHit_counts (s := { s with tb := { s.tb with coarse := tick, ticked := true } }) hc hn b] at hexec
    refine ⟨_, hexec, rfl, fun c => ?_⟩
    rw [State.chan_modChan, Channel.hit_eq]
    by_cases e : c = r.chan
    · rw [if_pos e, if_pos e, e]
      rfl
    · rw [if_neg e, if_neg e]
      rfl
  · refine State.event_to hp (f := Instr.effect .calDeadline) ?_
    show s.expiry .deadline = s
    unfold State.expiry
    rw [show s.instantOf .deadline = none by show Option.map _ s.cal = none; rw [hc]; rfl]
  · have hw : s.instantOf .deadline = some r.deadline := by
      show Option.map _ s.cal = _
      rw [hc]
      rfl
    have hexec := State.event_to hp (f := Instr.effect .calDeadline) (State.expiry_at hw (.inl hrun) hx)
    obtain ⟨hu, hch, hj, hl, hn⟩ := State.endCal_ends
      (s := { s with tb := s.tb.movedTo (s.reachedCount r.deadline) }) (r := r) hc .osc
    have hj' := fun g => (State.judgesAt_congr (s := s) (u' := _) rfl rfl (fun _ => rfl) (fun _ => rfl) rfl).mp (hj g)
    rw [show ({ s with tb := s.tb.movedTo (s.reachedCount r.deadline) } : State).expire .deadline r.deadline =
      ({ s with tb := s.tb.movedTo (s.reachedCount r.deadline) } : State).endCal .osc from rfl] at hexec
    generalize ({ s with tb := s.tb.movedTo (s.reachedCount r.deadline) } : State).endCal .osc = u at *
    have htb : u.tb.coarse = s.reachedCount r.deadline := by
      rw [hu]
      rfl
    refine ⟨u, hexec, hu, hch, ?_, hl.trans (State.post_link_congr rfl _), hn⟩
    rw [htb]
    exact hj'

/-! ## The judgement of a complete histogram (R65 to R68) -/

theorem lineIsShort_iff (h : Vector Nat 160) : lineIsShort h = true ↔ 0 < h[159] := by
  unfold lineIsShort hitsAt
  rw [decide_eq_true_iff, List.getD_eq_getElem?_getD, List.getElem?_eq_getElem (by simp)]
  simp

theorem hasWideBin_iff (h : Vector Nat 160) (span : Nat) : hasWideBin h span = true ↔ ∃ a : Bin, 262144 < h[a] * span := by
  unfold hasWideBin
  rw [List.any_eq_true]
  constructor
  · rintro ⟨x, hx, hlt⟩
    obtain ⟨i, hi, rfl⟩ := List.mem_iff_getElem.mp hx
    exact ⟨⟨i, by simpa using hi⟩, by simpa using hlt⟩
  · rintro ⟨a, ha⟩
    exact ⟨h[a], by simp, by simpa using ha⟩

theorem State.judgeCal_success {c : Chan}
    (h : judgeHistogram (s.chan c).histogram (s.chan c).attempt.spanFound = .success) :
    s.judgeCal c = (s.installTable c).endCal .success := by
  unfold State.judgeCal
  dsimp only
  rw [h]

theorem State.judgeCal_fails {c : Chan} {outcome : CalOutcome}
    (h : judgeHistogram (s.chan c).histogram (s.chan c).attempt.spanFound = outcome) (hne : outcome ≠ .success) :
    s.judgeCal c = s.endCal outcome := by
  unfold State.judgeCal
  dsimp only
  rw [h]
  cases outcome
  case success => exact absurd rfl hne
  all_goals rfl

/-- Settles O22: the checks in their order, and what each outcome leaves. -/
theorem lastHitJudgesTheHistogram : Obligations.LastHitJudgesTheHistogram := by
  unfold Obligations.LastHitJudgesTheHistogram
  intro s r tick b hp hc hrun ht hx hhits ch h span ended kept
  have hexec := exec_calHit hp hc hrun ht hx b
  rw [State.takeHit_judges (s := { s with tb := { s.tb with coarse := tick, ticked := true } }) hc hhits b] at hexec
  have hhit : (({ s with tb := { s.tb with coarse := tick, ticked := true } } : State).modChan r.chan
      (fun ch => ch.hit b)).chan r.chan = { ch with histogram := h, attempt := { ch.attempt with hits := 65536, spanFound := span } } := by
    rw [State.chan_modChan_self, Channel.hit_eq]
    show ({ ch with histogram := h, attempt := { ch.attempt with hits := ch.attempt.hits + 1, spanFound := span } } : Channel) = _
    rw [show ch.attempt.hits = 65535 from hhits]
  have hother (d : Chan) (hne : d ≠ r.chan) : (({ s with tb := { s.tb with coarse := tick, ticked := true } } : State).modChan
      r.chan (fun ch => ch.hit b)).chan d = s.chan d := by
    rw [State.chan_modChan, if_neg hne]
    rfl
  have hrest : ({ s with tb := { s.tb with coarse := tick, ticked := true } } : State).modChan r.chan (fun ch => ch.hit b) =
      { s with tb := { s.tb with coarse := tick, ticked := true }
               chans := (({ s with tb := { s.tb with coarse := tick, ticked := true } } : State).modChan r.chan
                 (fun ch => ch.hit b)).chans } := rfl
  generalize ({ s with tb := { s.tb with coarse := tick, ticked := true } } : State).modChan r.chan (fun ch => ch.hit b) = v
    at hexec hhit hother hrest
  have ends (w : State) (outcome : CalOutcome)
      (hw : w = { s with tb := { s.tb with coarse := tick, ticked := true }, chans := w.chans })
      (hother : ∀ d, d ≠ r.chan → w.chan d = s.chan d)
      (hown : w.chan r.chan = { ch with
        histogram := h, attempt := { ch.attempt with hits := 65536, spanFound := span }
        table := (w.chan r.chan).table, calibrated := (w.chan r.chan).calibrated, span := (w.chan r.chan).span
        outOfSpan := (w.chan r.chan).outOfSpan, adviceArmed := (w.chan r.chan).adviceArmed }) :
      ended outcome (w.endCal outcome) ∧ (w.endCal outcome).chan r.chan =
        { w.chan r.chan with attempt := { (w.chan r.chan).attempt with outcome := outcome } } := by
    obtain ⟨hu, hch, hj, hl, hn⟩ := State.endCal_ends (s := w) (r := r) (by rw [hw]; exact hc) outcome
    have hdesc (g : Desc) : w.desc g = s.desc g := by
      rw [hw]
      rfl
    have hlink : w.link = s.link := by rw [hw]
    have hcoarse : w.tb.coarse = tick := by rw [hw]
    have hw' : ∀ ds q cs, ({ w with chans := cs, cal := none, descs := ds, link := { w.link with noticeQueue := q } } : State) =
        { s with tb := { s.tb with coarse := tick, ticked := true }, chans := cs, cal := none, descs := ds
                 link := { s.link with noticeQueue := q } } := by
      intro ds q cs
      rw [hw]
    have hown' := hch r.chan
    rw [if_pos rfl] at hown'
    have hj' := fun g => (State.judgesAt_congr (s := s) (u' := _) (hdesc g) rfl (fun _ => rfl) (fun _ => rfl) rfl).mp (hj g)
    rw [hcoarse] at hj'
    rw [hlink] at hn
    generalize w.endCal outcome = u at hu hch hl hn hown' hj'
    refine ⟨⟨hu.trans (hw' ..), fun d hd => ?_, ?_, hj', hl.trans (State.post_link_congr hlink _), hn⟩, hown'⟩
    · rw [hch, if_neg hd, hother d hd]
    · rw [hown', hown]
  have fails {outcome : CalOutcome} (hj : judgeHistogram h span = outcome) (hne : outcome ≠ .success) :
      ended outcome (v.judgeCal r.chan) ∧ kept (v.judgeCal r.chan) := by
    rw [State.judgeCal_fails (by rw [hhit]; exact hj) hne]
    obtain ⟨h1, h2⟩ := ends v outcome hrest hother (by rw [hhit])
    refine ⟨h1, ?_⟩
    rw [hhit] at h2
    dsimp only [kept]
    rw [h2]
    exact ⟨rfl, rfl, rfl, rfl, rfl⟩
  have hins : (v.installTable r.chan).chan r.chan = { ch with
      histogram := h, attempt := { ch.attempt with hits := 65536, spanFound := span }
      table := builtTable h span, calibrated := true, span := span, outOfSpan := 0, adviceArmed := true } := by
    unfold State.installTable
    rw [State.chan_modChan_self, hhit]
  have hinsother (d : Chan) (hd : d ≠ r.chan) : (v.installTable r.chan).chan d = s.chan d := by
    unfold State.installTable
    rw [State.chan_modChan, if_neg hd, hother d hd]
  have hinsrest : v.installTable r.chan = { s with tb := { s.tb with coarse := tick, ticked := true }
                                                   chans := (v.installTable r.chan).chans } := by
    unfold State.installTable State.modChan
    rw [hrest]
  refine ⟨_, hexec, ?_⟩
  by_cases h1 : lineIsShort h = true
  · rw [if_pos ((lineIsShort_iff h).mp h1)]
    exact fails (if_pos h1) (by decide)
  by_cases h2 : span < 64
  · rw [if_neg (mt (lineIsShort_iff h).mpr h1), if_pos h2]
    exact fails ((if_neg h1).trans (if_pos h2)) (by decide)
  by_cases h3 : hasWideBin h span = true
  · rw [if_neg (mt (lineIsShort_iff h).mpr h1), if_neg h2, if_pos ((hasWideBin_iff h span).mp h3)]
    exact fails ((if_neg h1).trans ((if_neg h2).trans (if_pos h3))) (by decide)
  · rw [if_neg (mt (lineIsShort_iff h).mpr h1), if_neg h2, if_neg (mt (hasWideBin_iff h span).mpr h3)]
    rw [State.judgeCal_success (by rw [hhit]; exact (if_neg h1).trans ((if_neg h2).trans (if_neg h3)))]
    obtain ⟨h4, h5⟩ := ends (v.installTable r.chan) .success hinsrest hinsother (by rw [hins])
    rw [hins] at h5
    refine ⟨h4, ?_⟩
    rw [h5]
    exact ⟨rfl, rfl, rfl, rfl, rfl⟩

end

end Sys2Proof.Machine
end

section
/-!
An edge of an input: the order in which it is taken, what it does at each channel, and the counts (R21, R30 to R32).
-/

namespace Sys2Proof.Machine

section
variable {α : Type} [DecidableEq α] {first all : List α}

/-! ## The order in which the channels and the descriptors take an edge -/

theorem eraseDups_nodup (l : List α) : l.eraseDups.Nodup := by
  induction hn : l.length using Nat.strong_induction_on generalizing l with
  | _ n ih =>
    cases l with
    | nil => exact List.nodup_nil
    | cons a l =>
      rw [List.eraseDups_cons]
      have hlt : (l.filter (fun b => !b == a)).length < n := by
        have := List.length_filter_le (fun b => !b == a) l
        rw [List.length_cons] at hn
        omega
      exact List.nodup_cons.mpr ⟨by simp, ih _ hlt _ rfl⟩

theorem eraseDups_of_nodup {l : List α} (h : l.Nodup) : l.eraseDups = l := by
  induction l with
  | nil => rfl
  | cons a l ih =>
    obtain ⟨ha, hl⟩ := List.nodup_cons.mp h
    have hf : l.filter (fun b => !b == a) = l := by
      refine List.filter_eq_self.mpr fun b hb => ?_
      have : b ≠ a := fun e => ha (e ▸ hb)
      simpa using this
    rw [List.eraseDups_cons, hf, ih hl]

theorem takingOrder_nodup (h : all.Nodup) : (takingOrder first all).Nodup := by
  refine (eraseDups_nodup _).append (h.filter _) ?_
  intro a ha hb
  rw [List.mem_eraseDups, List.mem_filter] at ha
  simp [ha.1] at hb

theorem mem_takingOrder {a : α} (h : a ∈ all) : a ∈ takingOrder first all := by
  by_cases hf : a ∈ first
  · exact List.mem_append_left _ (List.mem_eraseDups.mpr (List.mem_filter.mpr ⟨hf, by simpa using h⟩))
  · exact List.mem_append_right _ (List.mem_filter.mpr ⟨h, by simpa using hf⟩)

theorem takingOrder_prefix (hall : ∀ a, a ∈ all) (h : first.Nodup) : ∃ rest, takingOrder first all = first ++ rest := by
  have hf : first.filter (fun a => all.contains a) = first := List.filter_eq_self.mpr fun a _ => by simpa using hall a
  exact ⟨_, by rw [takingOrder, hf, eraseDups_of_nodup h]⟩

end

section
variable {s t u v : State} {c d : Chan} {g : Desc} {input : PhysIn} {rising : Bool} {tick : Coarse} {b : Bin}

/-! ## The part at the edge's closing tick (R6, R7, R21) -/

/-- The part with the new level followed and the counter at the edge's closing tick. -/
def State.edgeSeen (s : State) (input : PhysIn) (rising : Bool) (tick : Coarse) : State :=
  { s with levels := s.levels.put input rising, tb := { s.tb with coarse := tick, ticked := true } }

theorem Timebase.closesAt_iff {tb : Timebase} :
    tb.closesAt tick = true ↔ (tb.state = .run ∨ tb.state = .relock) ∧ (tb.ticked = true ∨ tick ≠ tb.coarse) := by
  unfold Timebase.closesAt Timebase.counting
  cases tb.state <;> simp

/-- An edge whose closing tick is a tick of RUN or RELOCK, the counter coming to it with no expiry on the way. -/
theorem exec_inputEdge (hp : s.power = .ready) (hrun : s.tb.state = .run ∨ s.tb.state = .relock)
    (ht : s.tb.ticked = true ∨ tick ≠ s.tb.coarse) (hx : s.comesTo tick) (bins : Vector Bin 4) (chans : List Chan)
    (takings : List (Chan × Desc)) :
    exec (.inputEdge input rising tick bins chans takings) s =
      .next ((s.edgeSeen input rising tick).processEdge input rising tick bins chans takings).arbitrate := by
  have hx' : ({ s with levels := s.levels.put input rising } : State).comesTo tick := hx
  have ha := State.atCount_closing (s := { s with levels := s.levels.put input rising }) ht
  have hu := hx'.advanceTo.trans ha
  show Host.Outcome.next (if s.power = .ready ∧ s.tb.closesAt tick = true then _ else _) = _
  rw [if_pos ⟨hp, Timebase.closesAt_iff.mpr ⟨hrun, ht⟩⟩, hu]
  rfl

/-- An edge whose closing tick is no tick of RUN or RELOCK only moves the level. -/
theorem exec_inputEdge_unseen
    (h : s.power ≠ .ready ∨ s.tb.state = .halt ∨ s.tb.state = .acquire ∨ (s.tb.ticked = false ∧ tick = s.tb.coarse))
    (bins : Vector Bin 4) (chans : List Chan) (takings : List (Chan × Desc)) :
    exec (.inputEdge input rising tick bins chans takings) s = .next { s with levels := s.levels.put input rising } := by
  have hno : ¬(s.power = .ready ∧ s.tb.closesAt tick = true) := by
    rw [Timebase.closesAt_iff]
    rintro ⟨hp, hrun, ht⟩
    rcases h with h | h | h | ⟨h, e⟩
    · exact h hp
    · simp [h] at hrun
    · simp [h] at hrun
    · simp [h, e] at ht
  show Host.Outcome.next (if s.power = .ready ∧ s.tb.closesAt tick = true then _ else _) = _
  rw [if_neg hno]

/-! ## Qualification and stamping (R30 to R33, R42, R43) -/

theorem Polarity.selects_iff {p : Polarity} : p.selects rising = true ↔
    p = .both ∨ (p = .rise ∧ rising = true) ∨ (p = .fall ∧ rising = false) := by
  cases p <;> simp [Polarity.selects]

theorem State.chanState_parked_iff : s.chanState c = .parked ↔ parks s.aux.role (s.chan c).set.binding = true := by
  unfold State.chanState
  by_cases h : parks s.aux.role (s.chan c).set.binding = true
  · simp [h]
  · rw [if_neg h]
    split <;> simp [h]

theorem parks_some_iff {role : AuxRole} : parks role (some input) = true ↔ input = .aux ∧ role ≠ .signal := by
  cases input <;> simp [parks]

theorem Channel.holdoffPasses_iff {ch : Channel} :
    ch.holdoffPasses tick = true ↔ ∀ x, ch.holdoffEnd = some x → (tick - x).toNat < 2 ^ 53 := by
  unfold Channel.holdoffPasses
  cases ch.holdoffEnd <;> simp [atOrAfter]

theorem Channel.accepts_iff {ch : Channel} :
    ch.accepts tick = true ↔ ∀ x, ch.deadEnd = some x → (tick - x).toNat < 2 ^ 53 := by
  unfold Channel.accepts
  cases ch.deadEnd <;> simp [atOrAfter]

theorem State.edgeSeen_qualifies :
    (s.edgeSeen input rising tick).qualifies c input rising tick = true ↔ s.countsEdge c input rising tick := by
  unfold State.qualifies State.countsEdge State.inhibited State.auxActive
  simp only [Bool.and_eq_true, decide_eq_true_eq, Bool.not_eq_true', Polarity.selects_iff, Channel.holdoffPasses_iff,
    ne_eq, State.chanState_parked_iff]
  show ((((s.chan c).set.binding = some input ∧ ¬parks s.aux.role (s.chan c).set.binding = true) ∧ _) ∧
    ((s.chan c).set.inhibitObey && decide (s.aux.role = .inhibit)
      && (s.levels.put input rising).aux == s.aux.activeHigh) = false) ∧ (∀ x, (s.chan c).holdoffEnd = some x → _) ↔ _
  constructor
  · rintro ⟨⟨⟨⟨hb, hpark⟩, hpol⟩, hinh⟩, hhold⟩
    rw [hb, parks_some_iff] at hpark
    refine ⟨hb, fun e => ?_, hpol, ?_, hhold⟩
    · by_contra hne
      exact hpark ⟨e, hne⟩
    · rintro ⟨h1, h2, h3⟩
      simp [h1, h2, h3] at hinh
  · rintro ⟨hb, hsig, hpol, hinh, hhold⟩
    refine ⟨⟨⟨⟨hb, ?_⟩, hpol⟩, ?_⟩, hhold⟩
    · rw [hb, parks_some_iff]
      rintro ⟨e, hne⟩
      exact hne (hsig e)
    · rw [← Bool.not_eq_true, Bool.and_eq_true, Bool.and_eq_true]
      rintro ⟨⟨h1, h2⟩, h3⟩
      exact hinh ⟨h1, of_decide_eq_true h2, by simpa using h3⟩

theorem State.calibrates_iff : s.calibrates c = true ↔ ∃ r, s.cal = some r ∧ r.chan = c := by
  unfold State.calibrates
  cases s.cal <;> simp

/-- The stamp that an edge at `tick` gives on channel `c`, where it gives one (R44, R45, R47 to R49). -/
def State.edgeStamp (s : State) (c : Chan) (tick : Coarse) (b : Bin) : Stamp :=
  { chan := c, n := (s.chan c).n + 1, t := composeTime tick (s.chan c).table[b] (s.chan c).set.skew
    flags := stampFlags s.tb (s.chan c).calibrated, coarse := tick }

theorem State.countEdge_calibrates (s : State) (c d : Chan) (tick : Coarse) :
    (s.countEdge c tick).calibrates d = s.calibrates d := by
  unfold State.calibrates
  rw [(EdgeOnly.countEdge s c tick).cal]

theorem State.countEdge_stampOf (s : State) (c : Chan) (tick : Coarse) (b : Bin) :
    (s.countEdge c tick).stampOf c tick b = s.edgeStamp c tick b := by
  unfold State.stampOf State.edgeStamp
  rw [State.countEdge_chan, (EdgeOnly.countEdge s c tick).tb]

theorem State.stampTaken_isSome (s : State) (c : Chan) (input : PhysIn) (rising : Bool) (tick : Coarse) (b : Bin) :
    (s.stampTaken c input rising tick b).isSome =
      (s.qualifies c input rising tick && ((s.countEdge c tick).chan c).offersEdge
        && decide ((s.countEdge c tick).chanState c = .online) && ((s.countEdge c tick).chan c).accepts tick) := by
  unfold State.stampTaken
  dsimp only
  generalize (s.qualifies c input rising tick && ((s.countEdge c tick).chan c).offersEdge
        && decide ((s.countEdge c tick).chanState c = .online) && ((s.countEdge c tick).chan c).accepts tick) = taken
  cases taken <;> rfl

theorem State.edgeSeen_stampTaken :
    ((s.edgeSeen input rising tick).stampTaken c input rising tick b).isSome = true ↔ s.stampsEdge c input rising tick := by
  have hchan := State.countEdge_chan (s.edgeSeen input rising tick) c tick
  have hoffers : (((s.edgeSeen input rising tick).countEdge c tick).chan c).offersEdge = true ↔
      ((s.chan c).n + 1).toNat % 2 ^ (s.chan c).set.prescale = 0 := by
    rw [hchan]
    exact decide_eq_true_iff
  have haccepts : (((s.edgeSeen input rising tick).countEdge c tick).chan c).accepts tick = true ↔
      ∀ x, (s.chan c).deadEnd = some x → (tick - x).toNat < 2 ^ 53 := by
    rw [Channel.accepts_iff, hchan]
    exact Iff.rfl
  have hcal : (∀ r, s.cal = some r → r.chan ≠ c) ↔ s.calibrates c = false := by
    rw [← Bool.not_eq_true, State.calibrates_iff]
    simp
  have honline (hcount : s.countsEdge c input rising tick) :
      ((s.edgeSeen input rising tick).countEdge c tick).chanState c = .online ↔ s.calibrates c = false := by
    have hpark : parks s.aux.role (s.chan c).set.binding = false := by
      obtain ⟨hb, hsig, -⟩ := hcount
      rw [← Bool.not_eq_true, hb, parks_some_iff]
      rintro ⟨e, hne⟩
      exact hne (hsig e)
    unfold State.chanState
    rw [State.countEdge_calibrates, (EdgeOnly.countEdge _ c tick).aux, hchan]
    show (if parks s.aux.role (s.chan c).set.binding = true then _ else if s.calibrates c = true then _ else _) = _ ↔ _
    rw [if_neg (by simp [hpark])]
    cases s.calibrates c <;> simp
  have hsome : ((s.edgeSeen input rising tick).stampTaken c input rising tick b).isSome = true ↔
      (((s.edgeSeen input rising tick).qualifies c input rising tick = true
        ∧ (((s.edgeSeen input rising tick).countEdge c tick).chan c).offersEdge = true)
        ∧ ((s.edgeSeen input rising tick).countEdge c tick).chanState c = .online)
      ∧ (((s.edgeSeen input rising tick).countEdge c tick).chan c).accepts tick = true := by
    rw [State.stampTaken_isSome]
    simp only [Bool.and_eq_true, decide_eq_true_eq]
  rw [hsome, State.edgeSeen_qualifies, hoffers, haccepts]
  unfold State.stampsEdge
  dsimp only
  rw [hcal]
  constructor
  · rintro ⟨⟨⟨hcount, hoff⟩, hon⟩, hacc⟩
    exact ⟨hcount, hoff, (honline hcount).mp hon, hacc⟩
  · rintro ⟨hcount, hoff, hon, hacc⟩
    exact ⟨⟨⟨hcount, hoff⟩, (honline hcount).mpr hon⟩, hacc⟩

theorem State.stampTaken_eq {st : Stamp} (h : s.stampTaken c input rising tick b = some st) : st = s.edgeStamp c tick b :=
  (State.stampTaken_some h).1.trans (s.countEdge_stampOf c tick b)

theorem State.stampTaken_qualifies {st : Stamp} (h : s.stampTaken c input rising tick b = some st) :
    s.qualifies c input rising tick = true := by
  unfold State.stampTaken at h
  dsimp only at h
  split at h
  next hc =>
    simp only [Bool.and_eq_true] at hc
    exact hc.1.1.1
  next => cases h

/-! ## The edge at the channels in turn -/

/-- Two states agree on all that decides what an edge does at channel `c`. -/
structure State.edgeAgrees (c : Chan) (s t : State) : Prop where
  chan : t.chan c = s.chan c
  aux : t.aux = s.aux
  levels : t.levels = s.levels
  tb : t.tb = s.tb
  cal : t.cal = s.cal

theorem State.edgeAgrees.refl (c : Chan) (s : State) : s.edgeAgrees c s := ⟨rfl, rfl, rfl, rfl, rfl⟩

theorem State.edgeAgrees.of_engine (h : EngineOnly s t) (c : Chan) : s.edgeAgrees c t := ⟨h.chan c, h.aux, h.levels, h.tb, h.cal⟩

theorem State.edgeAgrees.other (h : s.edgeAgrees c t) (k : EdgeOnly d t u) (hd : c ≠ d) : s.edgeAgrees c u :=
  ⟨(k.others c hd).trans h.chan, k.aux.trans h.aux, k.levels.trans h.levels, k.tb.trans h.tb, k.cal.trans h.cal⟩

theorem State.edgeAgrees.chanState (h : s.edgeAgrees c t) : t.chanState c = s.chanState c := by
  unfold State.chanState State.calibrates
  rw [h.chan, h.aux, h.cal]

theorem State.edgeAgrees.qualifies (h : s.edgeAgrees c t) (input : PhysIn) (rising : Bool) (tick : Coarse) :
    t.qualifies c input rising tick = s.qualifies c input rising tick := by
  unfold State.qualifies State.inhibited State.auxActive
  rw [h.chanState, h.chan, h.aux, h.levels]

theorem State.edgeAgrees.countEdge (h : s.edgeAgrees c t) (tick : Coarse) :
    (s.countEdge c tick).edgeAgrees c (t.countEdge c tick) :=
  ⟨by rw [State.countEdge_chan, State.countEdge_chan, h.chan],
   (EdgeOnly.countEdge t c tick).aux.trans (h.aux.trans (EdgeOnly.countEdge s c tick).aux.symm),
   (EdgeOnly.countEdge t c tick).levels.trans (h.levels.trans (EdgeOnly.countEdge s c tick).levels.symm),
   (EdgeOnly.countEdge t c tick).tb.trans (h.tb.trans (EdgeOnly.countEdge s c tick).tb.symm),
   (EdgeOnly.countEdge t c tick).cal.trans (h.cal.trans (EdgeOnly.countEdge s c tick).cal.symm)⟩

theorem State.edgeAgrees.stampTaken (h : s.edgeAgrees c t) (input : PhysIn) (rising : Bool) (tick : Coarse) (b : Bin) :
    t.stampTaken c input rising tick b = s.stampTaken c input rising tick b := by
  have hk := h.countEdge tick
  unfold State.stampTaken State.stampOf
  dsimp only
  rw [h.qualifies, hk.chanState, hk.chan, hk.tb]

theorem State.edgeAgrees.channelEdge_chan (h : s.edgeAgrees c t) (input : PhysIn) (rising : Bool) (tick : Coarse) (b : Bin) :
    (t.channelEdge c input rising tick b).chan c = (s.channelEdge c input rising tick b).chan c := by
  rw [State.channelEdge_chan, State.channelEdge_chan, h.qualifies, h.stampTaken, (h.countEdge tick).chan, h.chan]

/-- A relation that the edge at each channel carries on, while nothing has touched that channel yet, is carried on by
the edge at all the channels of a list. -/
theorem State.channelEdges_rel {β : Type} {R : State → β → Prop} {F : β → Chan → β} {bins : Vector Bin 4}
    (hstep : ∀ c t x, s.edgeAgrees c t → R t x → R (t.channelEdge c input rising tick bins[c]) (F x c)) :
    ∀ (l : List Chan) (t : State) (x : β), l.Nodup → (∀ c ∈ l, s.edgeAgrees c t) → R t x →
      R (l.foldl (fun v c => v.channelEdge c input rising tick bins[c]) t) (l.foldl F x)
  | [], _, _, _, _, hR => hR
  | c :: l, t, x, hn, ha, hR => by
    obtain ⟨hc, hl⟩ := List.nodup_cons.mp hn
    refine State.channelEdges_rel hstep l _ _ hl (fun d hd => ?_) (hstep c t x (ha c List.mem_cons_self) hR)
    exact (ha d (List.mem_cons_of_mem _ hd)).other (.channelEdge t c input rising tick bins[c]) fun e => hc (e ▸ hd)

/-- Each channel of the list is as the edge leaves it, whatever the order. -/
theorem State.channelEdges_chan (s : State) (input : PhysIn) (rising : Bool) (tick : Coarse) (bins : Vector Bin 4) (d : Chan)
    {l : List Chan} (hn : l.Nodup) (hd : d ∈ l) (ha : ∀ c ∈ l, s.edgeAgrees c t) :
    (l.foldl (fun v c => v.channelEdge c input rising tick bins[c]) t).chan d =
      (s.channelEdge d input rising tick bins[d]).chan d := by
  have hrel := State.channelEdges_rel (s := s) (bins := bins) (input := input) (rising := rising) (tick := tick)
    (R := fun t x => t.chan d = x)
    (F := fun x c => if c = d then (s.channelEdge d input rising tick bins[d]).chan d else x)
    (fun c t x hc hx => by
      by_cases e : c = d
      · subst e
        rw [if_pos rfl]
        exact hc.channelEdge_chan input rising tick bins[c]
      · rw [if_neg e]
        exact ((EdgeOnly.channelEdge t c input rising tick bins[c]).others d fun h => e h.symm).trans hx)
    l t _ hn ha rfl
  rw [hrel]
  clear hrel hn ha
  generalize t.chan d = y
  induction l generalizing y with
  | nil => cases hd
  | cons c l ih =>
    rw [List.foldl_cons]
    by_cases hl : d ∈ l
    · exact ih hl _
    · have hc : c = d := by
        rcases List.mem_cons.mp hd with e | e
        · exact e.symm
        · exact absurd e hl
      rw [if_pos hc]
      exact foldl_unchanged fun e he => if_neg fun (h : e = d) => hl (h ▸ he)

end

end Sys2Proof.Machine
end

section
/-!
An edge counted and stamped at the channels, and its stamps taken (R30 to R34, R42 to R53).
-/

namespace Sys2Proof.Machine

section
variable {s t u v : State} {c d : Chan} {g : Desc} {input : PhysIn} {rising : Bool} {tick : Coarse} {b : Bin}

/-! ## What the edge at the channels keeps -/

/-- From `s` to `t` only the channels, the descriptors, the stream unit and the notice queue have changed. -/
def State.edgeKept (s t : State) : Prop :=
  t = { s with chans := t.chans, descs := t.descs, stream := t.stream
               link := { s.link with noticeQueue := t.link.noticeQueue } }

theorem State.edgeKept.refl (s : State) : s.edgeKept s := rfl

theorem State.edgeKept.trans (h : s.edgeKept t) (k : t.edgeKept u) : s.edgeKept u := by
  unfold State.edgeKept at *
  rw [h] at k
  exact k

theorem State.edgeKept.modChan (s : State) (c : Chan) (f : Channel → Channel) : s.edgeKept (s.modChan c f) := rfl

theorem State.edgeKept.modDesc (s : State) (g : Desc) (f : Descriptor → Descriptor) : s.edgeKept (s.modDesc g f) := rfl

theorem State.edgeKept.modStream (s : State) (f : StreamUnit → StreamUnit) : s.edgeKept (s.modStream f) := rfl

theorem State.edgeKept.post (s : State) (key : NoticeKey) : s.edgeKept (s.post key) := by
  have hl := (EngineOnly.post s key).link
  unfold State.edgeKept
  rw [← hl]
  rfl

theorem State.edgeKept.countEdge (s : State) (c : Chan) (tick : Coarse) : s.edgeKept (s.countEdge c tick) :=
  (State.edgeKept.modChan s c _).trans (State.forEight_keeps (P := State.edgeKept _)
    (fun g u hu => hu.trans (.modDesc u g _)) (.refl _))

theorem State.edgeKept.noteStamp (s : State) (st : Stamp) (b : Bin) : s.edgeKept (s.noteStamp st b) := by
  unfold State.noteStamp
  dsimp only
  have h : s.edgeKept (if (s.chan st.chan).advises b = true then
      (s.modChan st.chan fun ch => ch.stamped st.coarse b).post (.advise st.chan)
      else s.modChan st.chan fun ch => ch.stamped st.coarse b) := by
    split
    · exact (State.edgeKept.modChan s _ _).trans (.post _ _)
    · exact .modChan s _ _
  split
  · exact h.trans (.modStream _ _)
  · exact h

theorem State.edgeKept.channelEdge (s : State) (c : Chan) (input : PhysIn) (rising : Bool) (tick : Coarse) (b : Bin) :
    s.edgeKept (s.channelEdge c input rising tick b) := by
  unfold State.channelEdge
  split
  · split
    · exact (State.edgeKept.countEdge s c tick).trans (.noteStamp _ _ b)
    · exact .countEdge s c tick
  · exact .refl s

theorem State.edgeKept.channelEdges (input : PhysIn) (rising : Bool) (tick : Coarse) (bins : Vector Bin 4) :
    ∀ (l : List Chan) (s : State), s.edgeKept (l.foldl (fun v c => v.channelEdge c input rising tick bins[c]) s)
  | [], s => .refl s
  | c :: l, s => (State.edgeKept.channelEdge s c input rising tick bins[c]).trans (State.edgeKept.channelEdges input rising tick bins l _)

/-! ## The parts of an edge -/

/-- The AUX event of an edge delivered, if it has one (R23). -/
def State.auxDelivered (s : State) (input : PhysIn) (rising : Bool) (tick : Coarse) : State :=
  match input, s.aux.event rising with
  | .aux, some ev => s.deliver ev (s.sampleAt tick)
  | _, _ => s

theorem EngineOnly.auxDelivered (s : State) (input : PhysIn) (rising : Bool) (tick : Coarse) :
    EngineOnly s (s.auxDelivered input rising tick) := .auxEvent s s input rising tick

theorem State.auxDelivered_none (h : input ≠ .aux ∨ s.aux.role = .inhibit ∨ s.aux.role = .signal) :
    s.auxDelivered input rising tick = s := by
  unfold State.auxDelivered
  split
  next ev hev =>
    rcases h with h | h | h
    · exact absurd rfl h
    · simp [Aux.event, h] at hev
    · simp [Aux.event, h] at hev
  next => rfl

/-- The edge at every channel, in the order of the row. -/
def State.edgeCounted (s : State) (input : PhysIn) (rising : Bool) (tick : Coarse) (bins : Vector Bin 4)
    (chans : List Chan) : State :=
  (takingOrder chans allChans).foldl (fun v c => v.channelEdge c input rising tick bins[c])
    (s.auxDelivered input rising tick)

theorem State.processEdge_eq (s : State) (input : PhysIn) (rising : Bool) (tick : Coarse) (bins : Vector Bin 4)
    (chans : List Chan) (takings : List (Chan × Desc)) :
    s.processEdge input rising tick bins chans takings =
      (takingsOf takings (takingOrder chans allChans)).foldl
        (fun w p => w.taking (fun c => s.stampTaken c input rising tick bins[c]) tick p)
        (s.edgeCounted input rising tick bins chans) := rfl

theorem allChans_nodup : allChans.Nodup := by decide

theorem EngineOnly.takings (s : State) (stamps : Chan → Option Stamp) (tick : Coarse) (l : List (Chan × Desc)) :
    EngineOnly s (l.foldl (fun w p => w.taking stamps tick p) s) :=
  .foldl (fun u p => .taking u stamps tick p) l s

theorem State.processEdge_engine (s : State) (input : PhysIn) (rising : Bool) (tick : Coarse) (bins : Vector Bin 4)
    (chans : List Chan) (takings : List (Chan × Desc)) :
    EngineOnly (s.edgeCounted input rising tick bins chans) (s.processEdge input rising tick bins chans takings) := by
  rw [State.processEdge_eq]
  exact .takings _ _ tick _

/-- Every channel is as the edge at it alone leaves it. -/
theorem State.processEdge_chan (s : State) (input : PhysIn) (rising : Bool) (tick : Coarse) (bins : Vector Bin 4)
    (chans : List Chan) (takings : List (Chan × Desc)) (c : Chan) :
    (s.processEdge input rising tick bins chans takings).chan c = (s.channelEdge c input rising tick bins[c]).chan c :=
  ((s.processEdge_engine input rising tick bins chans takings).chan c).trans
    (State.channelEdges_chan s input rising tick bins c (takingOrder_nodup allChans_nodup) (mem_takingOrder (mem_allChans c))
      fun d _ => State.edgeAgrees.of_engine (.auxDelivered s input rising tick) d)

/-- What an edge leaves alone outside the engine. -/
theorem State.processEdge_frame (s : State) (input : PhysIn) (rising : Bool) (tick : Coarse) (bins : Vector Bin 4)
    (chans : List Chan) (takings : List (Chan × Desc)) :
    let u := s.processEdge input rising tick bins chans takings
    u.levels = s.levels ∧ u.tb = s.tb ∧ u.aux = s.aux ∧ u.cal = s.cal ∧ u.power = s.power ∧ u.lnkclk = s.lnkclk
      ∧ u.causes = s.causes ∧ u.pending = s.pending ∧ u.link = { s.link with noticeQueue := u.link.noticeQueue } := by
  intro u
  have ha := EngineOnly.auxDelivered s input rising tick
  have hv : (s.auxDelivered input rising tick).edgeKept (s.edgeCounted input rising tick bins chans) :=
    .channelEdges input rising tick bins _ _
  have he := s.processEdge_engine input rising tick bins chans takings
  unfold State.edgeKept at hv
  generalize s.edgeCounted input rising tick bins chans = v at hv he
  rw [hv] at he
  exact ⟨he.levels.trans ha.levels, he.tb.trans ha.tb, he.aux.trans ha.aux, he.cal.trans ha.cal, he.power.trans ha.power,
    he.lnkclk.trans ha.lnkclk, he.causes.trans ha.causes, he.pending.trans ha.pending, he.link.trans (by rw [ha.link])⟩

/-! ## The count and the interpolator of a channel (R30, R32, R42, R46) -/

theorem State.edgeSeen_chan (s : State) (input : PhysIn) (rising : Bool) (tick : Coarse) (c : Chan) :
    (s.edgeSeen input rising tick).chan c = s.chan c := rfl

theorem State.countedEdge_chan (h : s.countsEdge c input rising tick) (hn : ¬s.stampsEdge c input rising tick) :
    ((s.edgeSeen input rising tick).channelEdge c input rising tick b).chan c =
      { s.chan c with
        n := (s.chan c).n + 1
        holdoffEnd := if (s.chan c).set.holdoff = 0 then none else some (tick + (s.chan c).set.holdoff.zeroExtend 54) } := by
  rw [State.channelEdge_chan, if_pos (State.edgeSeen_qualifies.mpr h),
    if_neg (fun hs => hn (State.edgeSeen_stampTaken.mp hs)), State.countEdge_chan, State.edgeSeen_chan]

theorem State.stampedEdge_chan (h : s.stampsEdge c input rising tick) :
    ((s.edgeSeen input rising tick).channelEdge c input rising tick b).chan c =
      Channel.stamped { s.chan c with
        n := (s.chan c).n + 1
        holdoffEnd := if (s.chan c).set.holdoff = 0 then none else some (tick + (s.chan c).set.holdoff.zeroExtend 54) } tick b := by
  rw [State.channelEdge_chan, if_pos (State.edgeSeen_qualifies.mpr h.1), if_pos (State.edgeSeen_stampTaken.mpr h),
    State.countEdge_chan, State.edgeSeen_chan]

theorem State.uncountedEdge_chan (h : ¬s.countsEdge c input rising tick) :
    ((s.edgeSeen input rising tick).channelEdge c input rising tick b).chan c = s.chan c := by
  rw [State.channelEdge_chan, if_neg (fun hq => h (State.edgeSeen_qualifies.mp hq)), State.edgeSeen_chan]

/-- Settles O13: what an edge does to the counts, and what it leaves. -/
theorem countedEdgesAdvanceTheCount : Obligations.CountedEdgesAdvanceTheCount := by
  unfold Obligations.CountedEdgesAdvanceTheCount
  refine ⟨fun s input rising tick bins chans takings hp hrun ht hx => ?_, fun s input rising tick bins chans takings h =>
    exec_inputEdge_unseen h bins chans takings⟩
  have hexec := exec_inputEdge (input := input) (rising := rising) hp hrun ht hx bins chans takings
  have hframe := (s.edgeSeen input rising tick).processEdge_frame input rising tick bins chans takings
  have hchan := (s.edgeSeen input rising tick).processEdge_chan input rising tick bins chans takings
  generalize (s.edgeSeen input rising tick).processEdge input rising tick bins chans takings = u at *
  obtain ⟨hlv, htb, haux, hcal, hpow, hclk, hcause, hpend, hlink⟩ := hframe
  refine ⟨u, hexec, hlv, htb, fun c => ?_, haux, hcal, hpow, hclk, hcause, hpend, hlink⟩
  rw [hchan c]
  by_cases hcount : s.countsEdge c input rising tick
  · by_cases hstamp : s.stampsEdge c input rising tick
    · rw [State.stampedEdge_chan hstamp]
      exact ⟨fun _ => ⟨rfl, rfl⟩, fun hn => absurd hcount hn, rfl, rfl, rfl, rfl, rfl, rfl, rfl⟩
    · rw [State.countedEdge_chan hcount hstamp]
      exact ⟨fun _ => ⟨rfl, rfl⟩, fun hn => absurd hcount hn, rfl, rfl, rfl, rfl, rfl, rfl, rfl⟩
  · rw [State.uncountedEdge_chan hcount]
    exact ⟨fun hc => absurd hc hcount, fun _ => ⟨rfl, rfl⟩, rfl, rfl, rfl, rfl, rfl, rfl, rfl⟩

end

end Sys2Proof.Machine
end

section
/-!
An edge stamped at the channels, streamed, and taken by the descriptors (R34, R42 to R53, R71, R89).
-/

namespace Sys2Proof.Machine

section
variable {s t u v w : State} {c d : Chan} {g : Desc} {input : PhysIn} {rising : Bool} {tick : Coarse} {b : Bin}

/-! ## The interpolator after a stamp (R42, R46, R71) -/

theorem Channel.stamped_counts {ch : Channel} (h : ch.span ≤ b.val ∧ ch.outOfSpan < 65535) :
    (ch.stamped tick b).outOfSpan = ch.outOfSpan + 1
      ∧ (ch.stamped tick b).adviceArmed = (ch.adviceArmed && decide (ch.outOfSpan ≠ 255)) := by
  obtain ⟨hb, ho⟩ := h
  simp [Channel.stamped, hb, satInc, Config.sat16, Config.adviseAt, ho]

theorem Channel.stamped_stays {ch : Channel} (h : ¬(ch.span ≤ b.val ∧ ch.outOfSpan < 65535)) :
    (ch.stamped tick b).outOfSpan = ch.outOfSpan ∧ (ch.stamped tick b).adviceArmed = ch.adviceArmed := by
  by_cases hb : ch.span ≤ b.val
  · have ho : ¬ch.outOfSpan < 65535 := fun ho => h ⟨hb, ho⟩
    have hne : ch.outOfSpan ≠ 256 := by omega
    simp [Channel.stamped, hb, satInc, Config.sat16, Config.adviseAt, ho, hne]
  · simp [Channel.stamped, hb]

theorem Channel.advises_iff {ch : Channel} :
    ch.advises b = true ↔ ch.adviceArmed = true ∧ ch.span ≤ b.val ∧ ch.outOfSpan = 255 := by
  have hsat : satInc Config.sat16 ch.outOfSpan = Config.adviseAt ↔ ch.outOfSpan = 255 := by
    unfold satInc Config.sat16 Config.adviseAt
    split <;> omega
  unfold Channel.advises
  rw [Bool.and_eq_true, Bool.and_eq_true, decide_eq_true_iff, decide_eq_true_iff, hsat, and_assoc]

/-! ## The edge at one channel (R34, R52, R71) -/

theorem State.countEdge_desc (s : State) (c : Chan) (tick : Coarse) (g : Desc) :
    (s.countEdge c tick).desc g = (s.desc g).note c tick :=
  State.forEight_desc (f := fun g u => u.modDesc g (fun d => d.note c tick)) (F := fun _ d => d.note c tick)
    (P := fun _ => True) trivial (fun _ _ _ => trivial) (fun g u => .modDesc u g _) (fun g u _ => State.desc_modDesc_self u g _) g

theorem State.noteStamp_desc (s : State) (st : Stamp) (b : Bin) (g : Desc) : (s.noteStamp st b).desc g = s.desc g := by
  unfold State.noteStamp
  dsimp only
  split <;> split <;> rfl

theorem State.channelEdge_desc (s : State) (c : Chan) (input : PhysIn) (rising : Bool) (tick : Coarse) (b : Bin) (g : Desc) :
    (s.channelEdge c input rising tick b).desc g =
      if s.qualifies c input rising tick then (s.desc g).note c tick else s.desc g := by
  unfold State.channelEdge
  split
  · split
    · rw [State.noteStamp_desc, State.countEdge_desc]
    · exact s.countEdge_desc c tick g
  · rfl

theorem State.countEdge_stream_link (s : State) (c : Chan) (tick : Coarse) :
    (s.countEdge c tick).stream = s.stream ∧ (s.countEdge c tick).link = s.link := by
  have h (u : State) : (u.forEight fun g v => v.modDesc g (fun d => d.note c tick)).stream = u.stream
      ∧ (u.forEight fun g v => v.modDesc g (fun d => d.note c tick)).link = u.link :=
    State.forEight_keeps (P := fun v => v.stream = u.stream ∧ v.link = u.link)
      (f := fun g v => v.modDesc g (fun d => d.note c tick)) (s := u) (fun _ _ hv => hv) ⟨rfl, rfl⟩
  unfold State.countEdge
  exact h (s.modChan c _)

theorem State.noteStamp_stream (s : State) (st : Stamp) (b : Bin) : (s.noteStamp st b).stream =
    if (s.chan st.chan).streamEnable then s.stream.offer st else s.stream := by
  unfold State.noteStamp
  dsimp only
  split <;> split <;> rfl

theorem State.noteStamp_link (s : State) (st : Stamp) (b : Bin) : (s.noteStamp st b).link =
    if (s.chan st.chan).advises b then (s.post (.advise st.chan)).link else s.link := by
  unfold State.noteStamp
  dsimp only
  split <;> split <;> rfl

theorem State.channelEdge_of_none (h : s.stampTaken c input rising tick b = none) :
    s.channelEdge c input rising tick b = if s.qualifies c input rising tick then s.countEdge c tick else s := by
  unfold State.channelEdge
  rw [h]

theorem State.channelEdge_of_some {st : Stamp} (h : s.stampTaken c input rising tick b = some st) :
    s.channelEdge c input rising tick b = (s.countEdge c tick).noteStamp (s.edgeStamp c tick b) b := by
  have hq : s.qualifies c input rising tick = true := State.stampTaken_qualifies h
  unfold State.channelEdge
  rw [if_pos hq, h, State.stampTaken_eq h]

theorem State.countEdge_interpolator (s : State) (c : Chan) (tick : Coarse) (b : Bin) :
    ((s.countEdge c tick).chan c).streamEnable = (s.chan c).streamEnable
      ∧ ((s.countEdge c tick).chan c).advises b = (s.chan c).advises b := by
  rw [State.countEdge_chan]
  exact ⟨rfl, rfl⟩

theorem State.channelEdge_stream (s : State) (c : Chan) (input : PhysIn) (rising : Bool) (tick : Coarse) (b : Bin) :
    (s.channelEdge c input rising tick b).stream =
      if (s.stampTaken c input rising tick b).isSome = true ∧ (s.chan c).streamEnable = true then
        s.stream.offer (s.edgeStamp c tick b)
      else s.stream := by
  obtain ⟨hstream, -⟩ := s.countEdge_stream_link c tick
  obtain ⟨henable, -⟩ := s.countEdge_interpolator c tick b
  have hchan : (s.edgeStamp c tick b).chan = c := rfl
  cases hst : s.stampTaken c input rising tick b with
  | none =>
    rw [State.channelEdge_of_none hst]
    cases s.qualifies c input rising tick <;> simp [hstream]
  | some st =>
    rw [State.channelEdge_of_some hst, State.noteStamp_stream, hstream, hchan, henable]
    simp

theorem State.channelEdge_link (s : State) (c : Chan) (input : PhysIn) (rising : Bool) (tick : Coarse) (b : Bin) :
    (s.channelEdge c input rising tick b).link =
      if (s.stampTaken c input rising tick b).isSome = true ∧ (s.chan c).advises b = true then (s.post (.advise c)).link
      else s.link := by
  obtain ⟨-, hlink⟩ := s.countEdge_stream_link c tick
  obtain ⟨-, hadv⟩ := s.countEdge_interpolator c tick b
  have hchan : (s.edgeStamp c tick b).chan = c := rfl
  cases hst : s.stampTaken c input rising tick b with
  | none =>
    rw [State.channelEdge_of_none hst]
    cases s.qualifies c input rising tick <;> simp [hlink]
  | some st =>
    rw [State.channelEdge_of_some hst, State.noteStamp_link, hchan, hadv, State.post_link_congr hlink, hlink]
    simp

/-! ## The stamp of the row (R47 to R49) -/

/-- The stamp that the row gives by its fields is the stamp taken. -/
theorem State.edgeStamp_eq {st : Stamp} (hc : st.chan = c) (hn : st.n = (s.chan c).n + 1) (hx : st.coarse = tick)
    (hf : st.flags = { uncal := !(s.chan c).calibrated, holdover := s.tb.holdover
                       unsettled := decide (s.tb.state = .relock) })
    (ht : (st.t.toNat : Int) =
      ((tick.toNat : Int) * 1024 - ((s.chan c).table[b] : Int) + (s.chan c).set.skew.toInt) % 2 ^ 64) :
    (s.edgeSeen input rising tick).edgeStamp c tick b = st := by
  have hT : st.t = composeTime tick (s.chan c).table[b] (s.chan c).set.skew :=
    BitVec.eq_of_toNat_eq (by exact_mod_cast ht.trans (composeTime_toNat _ _ _).symm)
  obtain ⟨chan, n, time, flags, coarse⟩ := st
  simp only at hc hn hx hf hT
  rw [hc, hn, hx, hf, hT]
  rfl

/-! ## The takings (R51, R53, R89, R105) -/

theorem EngineOnly.sampleAt_eq (h : EngineOnly s t) (x : Coarse) : t.sampleAt x = s.sampleAt x := by
  unfold State.sampleAt State.chan
  rw [h.chans]

theorem State.takings_eq {stamps : Chan → Option Stamp} {stamped : Chan → Bool} {st : Chan → Stamp}
    (h : ∀ c, stamps c = if stamped c = true then some (st c) else none) :
    ∀ (l : List (Chan × Desc)) {w : State}, EngineOnly v w →
      l.foldl (fun w p => w.taking stamps tick p) w =
        l.foldl (fun w p => if stamped p.1 = true then w.offer p.2 (.stamp (st p.1)) (v.sampleAt tick) else w) w
  | [], _, _ => rfl
  | p :: l, w, hw => by
    have hp : w.taking stamps tick p =
        if stamped p.1 = true then w.offer p.2 (.stamp (st p.1)) (v.sampleAt tick) else w := by
      unfold State.taking
      rw [h p.1, hw.sampleAt_eq]
      split <;> simp_all
    rw [List.foldl_cons, List.foldl_cons, ← hp]
    exact State.takings_eq h l (hw.trans (.taking w stamps tick p))

theorem takingsOf_facts (first : List (Chan × Desc)) {chans : List Chan} (hn : chans.Nodup) (hall : ∀ c, c ∈ chans) :
    (takingsOf first chans).Nodup ∧ (∀ p, p ∈ takingsOf first chans)
      ∧ (first.Nodup → ∃ rest, takingsOf first chans = first ++ rest) := by
  have height : allEight.Nodup := by decide
  have hpairs : (chans.flatMap (fun c => allEight.map (fun g => (c, g)))).Nodup := hn.product height
  have hmem : ∀ p : Chan × Desc, p ∈ chans.flatMap (fun c => allEight.map (fun g => (c, g))) := fun p =>
    List.mem_product.mpr ⟨hall p.1, mem_allEight p.2⟩
  exact ⟨takingOrder_nodup hpairs, fun p => mem_takingOrder (hmem p), takingOrder_prefix hmem⟩

/-! ## The samples that a descriptor holds (R34, R105) -/

theorem Sample.note_counts (m : Sample) (c : Chan) (tick : Coarse) : (m.note c tick).instant = m.instant
    ∧ ∀ e : Chan, (m.note c tick).counts[e] = if m.instant = tick ∧ e = c then m.counts[e] + 1 else m.counts[e] := by
  unfold Sample.note
  by_cases h : tick = m.instant
  · rw [if_pos h]
    refine ⟨rfl, fun e => ?_⟩
    show (m.counts.set c.val (m.counts[c] + 1) c.isLt)[e.val] = _
    rw [Vector.getElem_set]
    by_cases he : e = c
    · rw [if_pos (congrArg Fin.val he.symm), if_pos ⟨h.symm, he⟩, he]
    · rw [if_neg (fun hv => he (Fin.ext hv.symm)), if_neg (fun hv => he hv.2)]
      rfl
  · rw [if_neg h]
    exact ⟨rfl, fun e => (if_neg fun hv => h hv.1.symm).symm⟩

/-- The channels, the stream, the advice and the descriptors once the edge has come to every channel, where no AUX
event comes with it. -/
theorem State.edgeCounted_folds (bins : Vector Bin 4) (chans : List Chan) {counted stamped : Chan → Bool} {st : Chan → Stamp}
    (haux : input ≠ .aux ∨ s.aux.role = .inhibit ∨ s.aux.role = .signal)
    (hcounted : ∀ c, counted c = true ↔ s.countsEdge c input rising tick)
    (hstamped : ∀ c, stamped c = true ↔ s.stampsEdge c input rising tick)
    (hst : ∀ c, (s.edgeSeen input rising tick).edgeStamp c tick bins[c] = st c) :
    let v := (s.edgeSeen input rising tick).edgeCounted input rising tick bins chans
    let order := takingOrder chans allChans
    (s.edgeSeen input rising tick).edgeKept v
    ∧ v.stream = order.foldl
        (fun q c => if stamped c = true ∧ (s.chan c).streamEnable = true then q.offer (st c) else q) s.stream
    ∧ v.link = (order.foldl (fun w c =>
        if stamped c = true ∧ (s.chan c).adviceArmed = true ∧ (s.chan c).span ≤ bins[c].val
            ∧ (s.chan c).outOfSpan = 255 then w.post (.advise c) else w) s).link
    ∧ (∀ g : Desc, v.desc g = order.foldl (fun d c => if counted c = true then d.note c tick else d) (s.desc g))
    ∧ (∀ c, (v.chan c).n = if counted c = true then (s.chan c).n + 1 else (s.chan c).n) := by
  intro v order
  have hv : v = order.foldl (fun v c => v.channelEdge c input rising tick bins[c]) (s.edgeSeen input rising tick) := by
    show order.foldl _ ((s.edgeSeen input rising tick).auxDelivered input rising tick) = _
    rw [State.auxDelivered_none (s := s.edgeSeen input rising tick) haux]
  have hnodup : order.Nodup := takingOrder_nodup allChans_nodup
  have hagree : ∀ c ∈ order, (s.edgeSeen input rising tick).edgeAgrees c (s.edgeSeen input rising tick) := fun c _ => .refl c _
  have htaken {c : Chan} {t : State} (ht : (s.edgeSeen input rising tick).edgeAgrees c t) :
      (t.stampTaken c input rising tick bins[c]).isSome = true ↔ stamped c = true := by
    rw [ht.stampTaken, State.edgeSeen_stampTaken, hstamped c]
  have hstamp {c : Chan} {t : State} (ht : (s.edgeSeen input rising tick).edgeAgrees c t) : t.edgeStamp c tick bins[c] = st c := by
    rw [← hst c]
    unfold State.edgeStamp
    rw [ht.chan, ht.tb]
  rw [hv]
  refine ⟨.channelEdges input rising tick bins order _, ?_, ?_, fun g => ?_, fun c => ?_⟩
  · refine State.channelEdges_rel (R := fun t q => t.stream = q) (fun c t q ht hq => ?_) order _ _ hnodup hagree rfl
    simp only [State.channelEdge_stream, htaken ht, hstamp ht, ht.chan, State.edgeSeen_chan, hq]
  · refine State.channelEdges_rel (R := fun t (w : State) => t.link = w.link) (fun c t w ht hw => ?_) order _ _ hnodup hagree rfl
    simp only [State.channelEdge_link, htaken ht, ht.chan, State.edgeSeen_chan, Channel.advises_iff]
    split
    · exact State.post_link_congr hw _
    · exact hw
  · refine State.channelEdges_rel (R := fun t d => t.desc g = d) (fun c t d ht hd => ?_) order _ _ hnodup hagree rfl
    have hq : t.qualifies c input rising tick = true ↔ counted c = true := by
      rw [ht.qualifies, State.edgeSeen_qualifies, hcounted c]
    simp only [State.channelEdge_desc, hq, hd]
  · rw [State.channelEdges_chan (s.edgeSeen input rising tick) input rising tick bins c hnodup (mem_takingOrder (mem_allChans c)) hagree]
    by_cases hc : counted c = true
    · rw [if_pos hc]
      by_cases hs : s.stampsEdge c input rising tick
      · rw [State.stampedEdge_chan hs]
        rfl
      · rw [State.countedEdge_chan ((hcounted c).mp hc) hs]
    · rw [if_neg hc, State.uncountedEdge_chan fun h => hc ((hcounted c).mpr h)]

/-- Settles O14: the interpolators, the FIFO, the advice and the takings of a stamped edge. -/
theorem stampedEdgesMoveTheInterpolator : Obligations.StampedEdgesMoveTheInterpolator := by
  unfold Obligations.StampedEdgesMoveTheInterpolator
  refine ⟨fun s input rising tick bins chans takings hp hrun ht hx => ?_, ?_, fun c tick => ?_⟩
  · refine ⟨_, exec_inputEdge (input := input) (rising := rising) hp hrun ht hx bins chans takings, fun c => ?_⟩
    rw [State.processEdge_chan]
    constructor
    · intro hs
      rw [State.stampedEdge_chan hs]
      refine ⟨rfl, rfl, ?_⟩
      split
      next h => exact Channel.stamped_counts (ch := { s.chan c with n := _, holdoffEnd := _ }) h
      next h => exact Channel.stamped_stays (ch := { s.chan c with n := _, holdoffEnd := _ }) h
    · intro hs
      by_cases hc : s.countsEdge c input rising tick
      · rw [State.countedEdge_chan hc hs]
        exact ⟨rfl, rfl, rfl, rfl⟩
      · rw [State.uncountedEdge_chan hc]
        exact ⟨rfl, rfl, rfl, rfl⟩
  · intro s input rising tick bins chans takings counted stamped st hp hrun ht hx haux hcounted hstamped hfields order
    have hst (c : Chan) : (s.edgeSeen input rising tick).edgeStamp c tick bins[c] = st c := by
      obtain ⟨h1, h2, h3, h4, h5⟩ := hfields c
      exact State.edgeStamp_eq h1 h2 h3 h4 h5
    have hexec := exec_inputEdge (input := input) (rising := rising) hp hrun ht hx bins chans takings
    rw [State.processEdge_eq] at hexec
    obtain ⟨hkept, hstream, hlink, hdesc, hn⟩ := State.edgeCounted_folds bins chans haux hcounted hstamped hst
    have hnodup : order.Nodup := takingOrder_nodup allChans_nodup
    obtain ⟨htn, htall, htpre⟩ := takingsOf_facts takings (chans := order) hnodup fun c => mem_takingOrder (mem_allChans c)
    have hstamps (c : Chan) : (s.edgeSeen input rising tick).stampTaken c input rising tick bins[c] =
        if stamped c = true then some (st c) else none := by
      cases h : (s.edgeSeen input rising tick).stampTaken c input rising tick bins[c] with
      | none =>
        refine (if_neg fun hs => ?_).symm
        have hsome := State.edgeSeen_stampTaken (b := bins[c]).mpr ((hstamped c).mp hs)
        rw [h] at hsome
        cases hsome
      | some x =>
        rw [if_pos ((hstamped c).mpr (State.edgeSeen_stampTaken.mp (by rw [h]; rfl))), State.stampTaken_eq h, hst c]
    generalize (s.edgeSeen input rising tick).edgeCounted input rising tick bins chans = v at *
    rw [State.takings_eq hstamps _ (.refl v)] at hexec
    exact ⟨v, _, hexec, hkept, hstream, hlink, hdesc, hn, rfl, rfl, fun c => v.sampleAt_counts tick c, hnodup,
      fun c => mem_takingOrder (mem_allChans c), takingOrder_prefix mem_allChans, htn, htall, htpre⟩
  · exact ⟨fun m => m.note c tick, fun m => m.note_counts c tick, fun d => rfl⟩

end

end Sys2Proof.Machine
end

section
/-!
An edge of AUX under role ARM or GATE, delivered to the descriptors (R23, R86, R88, R92, R119).
-/

namespace Sys2Proof.Machine

section
variable {s t u v w : State} {g : Desc} {rising : Bool} {tick : Coarse} {ev : MenEvent} {m : Sample}

/-! ## An AUX event at one descriptor (R86, R89, R92, R119) -/

theorem State.offer_untaken (h : (s.desc g).active.takes ev = false) (m : Sample) : s.offer g ev m = s := by
  unfold State.offer
  rw [if_neg (by rw [h]; exact Bool.false_ne_true)]

theorem State.offer_behindClose (h : (s.desc g).active.takes ev = true) (hc : (s.desc g).closeEvent ≠ none) (m : Sample) :
    s.offer g ev m = s.modDesc g (fun d => { d with deferred := d.deferred ++ [(ev, m)] }) := by
  unfold State.offer
  rw [if_pos h, if_pos (Option.isSome_iff_ne_none.mpr hc)]

theorem State.offer_judged (h : (s.desc g).active.takes ev = true) (hc : (s.desc g).closeEvent = none) (m : Sample) :
    s.offer g ev m = s.judgeEvent g ev m := by
  unfold State.offer
  rw [if_pos h, hc]
  rfl

theorem GateCopy.totalizeAux_iff {cp : GateCopy} : cp.totalizeAux = true ↔ cp.fn = .totalize ∧ cp.mode = .aux := by
  unfold GateCopy.totalizeAux
  rw [Bool.and_eq_true, decide_eq_true_iff, decide_eq_true_iff]

theorem OneDesc.armEvent (s : State) (g : Desc) (m : Sample) : OneDesc g s (s.armEvent g m) := by
  unfold State.armEvent
  split
  · exact .arm s g m
  · exact .refl g s

/-- An AUX event at the present count changes one descriptor. -/
theorem OneDesc.offerAux (hev : ∀ st, ev ≠ .stamp st) (s : State) (g : Desc) : OneDesc g s (s.offer g ev s.sampleNow) := by
  cases ht : (s.desc g).active.takes ev with
  | false =>
    rw [State.offer_untaken ht]
    exact .refl g s
  | true =>
    by_cases hc : (s.desc g).closeEvent = none
    · rw [State.offer_judged ht hc]
      unfold State.judgeEvent
      cases ev with
      | stamp st => exact absurd rfl (hev st)
      | auxArm =>
        dsimp only
        split
        · exact .armEvent s g _
        · exact .refl g s
      | auxOpen =>
        dsimp only
        split
        · exact .modDesc s g _
        · exact .refl g s
      | auxClose =>
        dsimp only
        split
        next h =>
          rw [State.closeGate_totalizeNow (GateCopy.totalizeAux_iff.mp h.1).1 rfl]
          exact .modDesc s g _
        next => exact .refl g s
    · rw [State.offer_behindClose ht hc]
      exact .modDesc s g _

/-- An AUX event at the present count comes to every descriptor as that descriptor was. -/
theorem State.deliver_turns (hev : ∀ st, ev ≠ .stamp st) (s : State) :
    s.deliver ev s.sampleNow = { s with descs := (s.deliver ev s.sampleNow).descs }
    ∧ ∀ g : Desc, ∃ w : State, w = { s with descs := w.descs } ∧ w.desc g = s.desc g
        ∧ (s.deliver ev s.sampleNow).desc g = (w.offer g ev w.sampleNow).desc g := by
  have hnow {w : State} (hw : w = { s with descs := w.descs }) : s.sampleNow = w.sampleNow := by
    rw [hw]
    rfl
  have hone (g : Desc) {w : State} (hw : w = { s with descs := w.descs }) : OneDesc g w (w.offer g ev s.sampleNow) := by
    rw [hnow hw]
    exact .offerAux hev w g
  have hkeeps (g : Desc) {w : State} (hw : w = { s with descs := w.descs }) :
      w.offer g ev s.sampleNow = { s with descs := (w.offer g ev s.sampleNow).descs } := by
    have h := (hone g hw).1
    rw [hw] at h
    rw [hw]
    exact h
  refine ⟨State.forEight_keeps (P := fun w => w = { s with descs := w.descs }) (f := fun g u => u.offer g ev s.sampleNow)
    (fun g u hu => hkeeps g hu) rfl, fun g => ?_⟩
  obtain ⟨w, hw, hd, hg⟩ := State.forEight_turn (f := fun g u => u.offer g ev s.sampleNow) (s := s)
    (P := fun w => w = { s with descs := w.descs }) rfl (fun g u hu => hkeeps g hu) (fun g u hu => (hone g hu).2) g
  exact ⟨w, hw, hd, hg.trans (by rw [hnow hw])⟩

/-! ## An AUX edge under role ARM or GATE (R23) -/

theorem State.edgeSeen_sampleNow (s : State) (input : PhysIn) (rising : Bool) (tick : Coarse) :
    (s.edgeSeen input rising tick).sampleNow = (s.edgeSeen input rising tick).sampleAt tick := rfl

/-- Outside role SIGNAL an edge of AUX is counted on no channel. -/
theorem State.processEdge_auxRole (h : s.aux.role ≠ .signal) (bins : Vector Bin 4) (chans : List Chan)
    (takings : List (Chan × Desc)) :
    (s.edgeSeen .aux rising tick).processEdge .aux rising tick bins chans takings =
      (s.edgeSeen .aux rising tick).auxDelivered .aux rising tick := by
  have hno (c : Chan) : ¬s.countsEdge c .aux rising tick := fun hc => h (hc.2.1 rfl)
  have hunstamped (c : Chan) : (s.edgeSeen .aux rising tick).stampTaken c .aux rising tick bins[c] = none := by
    rw [← Option.not_isSome_iff_eq_none]
    exact fun hs => hno c (State.edgeSeen_stampTaken.mp hs).1
  have hsame (c : Chan) : ((s.edgeSeen .aux rising tick).auxDelivered .aux rising tick).channelEdge c .aux rising tick bins[c] =
      (s.edgeSeen .aux rising tick).auxDelivered .aux rising tick := by
    have hq := (State.edgeAgrees.of_engine (.auxDelivered (s.edgeSeen .aux rising tick) .aux rising tick) c).qualifies .aux rising tick
    unfold State.channelEdge
    exact if_neg fun hc => hno c (State.edgeSeen_qualifies.mp (hq.symm.trans hc))
  have hcounted : (s.edgeSeen .aux rising tick).edgeCounted .aux rising tick bins chans =
      (s.edgeSeen .aux rising tick).auxDelivered .aux rising tick := foldl_unchanged fun c _ => hsame c
  rw [State.processEdge_eq, hcounted]
  refine foldl_unchanged fun p _ => ?_
  unfold State.taking
  dsimp only
  rw [hunstamped p.1]

/-- An AUX edge with an event: it comes to every descriptor at the edge's coarse count. -/
theorem exec_auxEvent (hp : s.power = .ready) (hrun : s.tb.state = .run ∨ s.tb.state = .relock)
    (ht : s.tb.ticked = true ∨ tick ≠ s.tb.coarse) (hx : s.comesTo tick) (hrole : s.aux.role ≠ .signal)
    (hev : s.aux.event rising = some ev) (bins : Vector Bin 4) (chans : List Chan) (takings : List (Chan × Desc)) :
    exec (.inputEdge .aux rising tick bins chans takings) s =
      .next ((s.edgeSeen .aux rising tick).deliver ev (s.edgeSeen .aux rising tick).sampleNow).arbitrate := by
  have hd : (s.edgeSeen .aux rising tick).auxDelivered .aux rising tick =
      (s.edgeSeen .aux rising tick).deliver ev (s.edgeSeen .aux rising tick).sampleNow := by
    show (match PhysIn.aux, s.aux.event rising with
      | .aux, some ev => (s.edgeSeen .aux rising tick).deliver ev _
      | _, _ => _) = _
    rw [hev]
    rfl
  rw [exec_inputEdge hp hrun ht hx, State.processEdge_auxRole hrole, hd]

/-- An AUX edge without an event only moves the level and the counter. -/
theorem exec_auxSilent (hp : s.power = .ready) (hrun : s.tb.state = .run ∨ s.tb.state = .relock)
    (ht : s.tb.ticked = true ∨ tick ≠ s.tb.coarse) (hx : s.comesTo tick) (hrole : s.aux.role ≠ .signal)
    (hev : s.aux.event rising = none) (bins : Vector Bin 4) (chans : List Chan) (takings : List (Chan × Desc)) :
    exec (.inputEdge .aux rising tick bins chans takings) s = .next (s.edgeSeen .aux rising tick).arbitrate := by
  have hd : (s.edgeSeen .aux rising tick).auxDelivered .aux rising tick = s.edgeSeen .aux rising tick := by
    show (match PhysIn.aux, s.aux.event rising with
      | .aux, some ev => (s.edgeSeen .aux rising tick).deliver ev _
      | _, _ => _) = _
    rw [hev]
  rw [exec_inputEdge hp hrun ht hx, State.processEdge_auxRole hrole, hd]

/-- What a descriptor between its close event and its record makes of an event that its copy takes. -/
theorem State.offer_waits_desc (hw : w = { s.edgeSeen .aux rising tick with descs := w.descs }) (hd : w.desc g = s.desc g)
    (htake : (s.desc g).active.takes ev = true) (hc : (s.desc g).closeEvent ≠ none) :
    ∃ m : Sample, m.instant = tick ∧ (∀ c : Chan, m.counts[c] = (s.chan c).n)
      ∧ (w.offer g ev w.sampleNow).desc g = { s.desc g with deferred := (s.desc g).deferred ++ [(ev, m)] } := by
  have hm : w.sampleNow = s.sampleAt tick := by
    rw [hw]
    rfl
  refine ⟨s.sampleAt tick, rfl, s.sampleAt_counts tick, ?_⟩
  rw [State.offer_behindClose (by rw [hd]; exact htake) (by rw [hd]; exact hc), hm, State.desc_modDesc_self, hd]

/-- Role ARM at a descriptor that waits for no record. -/
theorem State.offer_auxArm (hw : w = { s.edgeSeen .aux rising tick with descs := w.descs }) (hd : w.desc g = s.desc g)
    (hrun : s.tb.state = .run ∨ s.tb.state = .relock) (hc : (s.desc g).closeEvent = none) :
    (((s.desc g).state = .waitArm ∧ (s.desc g).active.arm = .aux
        ∧ ∀ c ∈ (s.desc g).active.used, s.chanState c = .online) →
      s.armsInto (s.desc g) tick ((w.offer g .auxArm w.sampleNow).desc g))
    ∧ (¬((s.desc g).state = .waitArm ∧ (s.desc g).active.arm = .aux
        ∧ ∀ c ∈ (s.desc g).active.used, s.chanState c = .online) →
      (w.offer g .auxArm w.sampleNow).desc g = s.desc g) := by
  have hstate (c : Chan) : w.chanState c = s.chanState c := by
    rw [hw]
    rfl
  have hcounting : w.tb.counting = true := by
    rw [hw]
    exact Timebase.counting_of_run hrun
  rw [State.offer_judged rfl (by rw [hd]; exact hc)]
  show (_ → s.armsInto _ tick ((if (w.desc g).active.arm = .aux then w.armEvent g w.sampleNow else w).desc g))
    ∧ (_ → (if (w.desc g).active.arm = .aux then w.armEvent g w.sampleNow else w).desc g = _)
  unfold State.armEvent
  simp only [hd, State.ready_iff, hcounting, hstate, true_and]
  constructor
  · rintro ⟨hwait, harm, honline⟩
    rw [if_pos harm, if_pos ⟨hwait, honline⟩]
    have h := w.arm_armsInto g
    have hcoarse : w.tb.coarse = tick := by
      rw [hw]
      rfl
    have hchan (c : Chan) : (w.chan c).n = (s.chan c).n := by
      rw [hw]
      rfl
    have hflags : w.tb.holdover = s.tb.holdover ∧ w.tb.state = s.tb.state := by
      rw [hw]
      exact ⟨rfl, rfl⟩
    rw [hd, hcoarse] at h
    unfold State.armsInto State.openedAt at *
    simp only [hchan, hflags] at h
    exact h
  · intro hno
    by_cases harm : (s.desc g).active.arm = .aux
    · rw [if_pos harm, if_neg fun h => hno ⟨h.1, harm, h.2⟩, hd]
    · rw [if_neg harm, hd]

/-- Role GATE at a descriptor that waits for no record: an active edge. -/
theorem State.offer_auxOpen (hw : w = { s.edgeSeen .aux rising tick with descs := w.descs }) (hd : w.desc g = s.desc g)
    (hc : (s.desc g).closeEvent = none) :
    (w.offer g .auxOpen w.sampleNow).desc g =
      if (s.desc g).active.fn = .totalize ∧ (s.desc g).active.mode = .aux ∧ (s.desc g).state = .armed then
        { s.desc g with
          state := .gateOpen
          ctx := some {
            openStamp := none, opening := s.sampleAt tick, cEnd := none, last := none
            flags := { uncal := false, holdover := s.tb.holdover, unsettled := decide (s.tb.state = .relock) }
            endReached := false }
          timeoutAt := (s.desc g).active.timeoutFrom tick, closeEvent := none }
      else s.desc g := by
  have hm : w.sampleNow = s.sampleAt tick := by
    rw [hw]
    rfl
  have hflags : w.tb.gateFlags = { uncal := false, holdover := s.tb.holdover, unsettled := decide (s.tb.state = .relock) } := by
    rw [hw]
    rfl
  have hcoarse : w.tb.coarse = tick := by
    rw [hw]
    rfl
  by_cases hmode : (s.desc g).active.mode = .aux
  · rw [State.offer_judged (by rw [hd]; exact decide_eq_true hmode) (by rw [hd]; exact hc)]
    unfold State.judgeEvent
    dsimp only
    rw [hd]
    by_cases h : (s.desc g).active.fn = .totalize ∧ (s.desc g).active.mode = .aux ∧ (s.desc g).state = .armed
    · obtain ⟨hfn, -, harmed⟩ := h
      rw [if_pos ⟨GateCopy.totalizeAux_iff.mpr ⟨hfn, hmode⟩, harmed⟩, if_pos ⟨hfn, hmode, harmed⟩]
      unfold State.openGate
      rw [State.desc_modDesc_self, hd, hm, hflags, hcoarse]
      simp only [hmode, hfn, Fn.edgeSynced]
      rfl
    · rw [if_neg fun hc => h ⟨(GateCopy.totalizeAux_iff.mp hc.1).1, hmode, hc.2⟩, if_neg h, hd]
  · rw [State.offer_untaken (by rw [hd]; exact decide_eq_false hmode), if_neg fun h => hmode h.2.1, hd]

/-- Role GATE at a descriptor that waits for no record: an inactive edge. -/
theorem State.offer_auxClose (hw : w = { s.edgeSeen .aux rising tick with descs := w.descs }) (hd : w.desc g = s.desc g)
    (hc : (s.desc g).closeEvent = none) :
    (w.offer g .auxClose w.sampleNow).desc g =
      if (s.desc g).active.fn = .totalize ∧ (s.desc g).active.mode = .aux ∧ (s.desc g).state = .gateOpen then
        { s.desc g with closeEvent := some { completion := .normal, stamp := none, sample := s.sampleAt tick } }
      else s.desc g := by
  have hm : w.sampleNow = s.sampleAt tick := by
    rw [hw]
    rfl
  by_cases hmode : (s.desc g).active.mode = .aux
  · rw [State.offer_judged (by rw [hd]; exact decide_eq_true hmode) (by rw [hd]; exact hc)]
    unfold State.judgeEvent
    dsimp only
    rw [hd]
    by_cases h : (s.desc g).active.fn = .totalize ∧ (s.desc g).active.mode = .aux ∧ (s.desc g).state = .gateOpen
    · obtain ⟨hfn, -, hopen⟩ := h
      rw [if_pos ⟨GateCopy.totalizeAux_iff.mpr ⟨hfn, hmode⟩, hopen⟩, if_pos ⟨hfn, hmode, hopen⟩,
        State.closeGate_totalizeNow (by rw [hd]; exact hfn) rfl, State.desc_modDesc_self, hd, hm]
    · rw [if_neg fun hc => h ⟨(GateCopy.totalizeAux_iff.mp hc.1).1, hmode, hc.2⟩, if_neg h, hd]
  · rw [State.offer_untaken (by rw [hd]; exact decide_eq_false hmode), if_neg fun h => hmode h.2.1, hd]

/-- Settles O17: an AUX edge under role ARM or GATE, at every descriptor. -/
theorem activeAuxEdgeArmsWaitingDescriptors : Obligations.ActiveAuxEdgeArmsWaitingDescriptors := by
  unfold Obligations.ActiveAuxEdgeArmsWaitingDescriptors
  intro s rising tick bins chans takings hp hrun ht hx waits framed
  dsimp only [waits, framed]
  clear waits framed
  constructor
  · intro hrole
    have hsig : s.aux.role ≠ .signal := by simp [hrole]
    by_cases hact : rising = s.aux.activeHigh
    · have hev : s.aux.event rising = some .auxArm := by simp [Aux.event, hrole, hact]
      obtain ⟨hframe, hturn⟩ := State.deliver_turns (ev := .auxArm) (by simp) (s.edgeSeen .aux rising tick)
      refine ⟨_, ⟨exec_auxEvent hp hrun ht hx hsig hev bins chans takings, hframe⟩, fun g => ?_⟩
      obtain ⟨w, hw, hd, hg⟩ := hturn g
      rw [hg]
      by_cases hc : (s.desc g).closeEvent = none
      · rw [if_neg (not_not_intro hc)]
        obtain ⟨harm, hstay⟩ := State.offer_auxArm hw hd hrun hc
        split
        next h => exact harm h.2
        next h => exact hstay fun h' => h ⟨hact, h'⟩
      · rw [if_pos hc]
        exact ⟨fun _ => State.offer_waits_desc hw hd rfl hc, fun h => absurd hact h⟩
    · have hev : s.aux.event rising = none := by simp [Aux.event, hrole, hact]
      refine ⟨_, ⟨exec_auxSilent hp hrun ht hx hsig hev bins chans takings, rfl⟩, fun g => ?_⟩
      by_cases hc : (s.desc g).closeEvent = none
      · rw [if_neg (not_not_intro hc), if_neg fun h => hact h.1]
        rfl
      · rw [if_pos hc]
        exact ⟨fun h => absurd h hact, fun _ => rfl⟩
  · intro hrole
    have hsig : s.aux.role ≠ .signal := by simp [hrole]
    by_cases hact : rising = s.aux.activeHigh
    · have hev : s.aux.event rising = some .auxOpen := by simp [Aux.event, hrole, hact]
      obtain ⟨hframe, hturn⟩ := State.deliver_turns (ev := .auxOpen) (by simp) (s.edgeSeen .aux rising tick)
      refine ⟨_, ⟨exec_auxEvent hp hrun ht hx hsig hev bins chans takings, hframe⟩, fun g hc => ?_,
        s.sampleAt tick, rfl, s.sampleAt_counts tick, fun g hc => ?_⟩
      · obtain ⟨w, hw, hd, hg⟩ := hturn g
        rw [hg, if_pos hact]
        refine ⟨fun hmode => State.offer_waits_desc hw hd (decide_eq_true hmode) hc, fun hmode => ?_⟩
        rw [State.offer_untaken (by rw [hd]; exact decide_eq_false hmode), hd]
        rfl
      · obtain ⟨w, hw, hd, hg⟩ := hturn g
        rw [hg, State.offer_auxOpen hw hd hc]
        simp only [hact, true_and, ne_eq, not_true_eq_false, false_and, and_false, if_false]
    · have hev : s.aux.event rising = some .auxClose := by
        have : (rising == s.aux.activeHigh) = false := by simpa using hact
        simp [Aux.event, hrole, this]
      obtain ⟨hframe, hturn⟩ := State.deliver_turns (ev := .auxClose) (by simp) (s.edgeSeen .aux rising tick)
      refine ⟨_, ⟨exec_auxEvent hp hrun ht hx hsig hev bins chans takings, hframe⟩, fun g hc => ?_,
        s.sampleAt tick, rfl, s.sampleAt_counts tick, fun g hc => ?_⟩
      · obtain ⟨w, hw, hd, hg⟩ := hturn g
        rw [hg, if_neg hact]
        refine ⟨fun hmode => State.offer_waits_desc hw hd (decide_eq_true hmode) hc, fun hmode => ?_⟩
        rw [State.offer_untaken (by rw [hd]; exact decide_eq_false hmode), hd]
        rfl
      · obtain ⟨w, hw, hd, hg⟩ := hturn g
        rw [hg, State.offer_auxClose hw hd hc]
        simp only [hact, true_and, ne_eq, not_false_eq_true, false_and, and_false, if_false]

end

end Sys2Proof.Machine
end

section
/-!
The line and the receiver, sample by sample, and the clock of the link (R153, R154, R157).
-/

namespace Sys2Proof.Machine

section
variable {s : State} {l : Link} {b : Byte} {samples later : List Bool}

/-! ## A byte and its samples (R153) -/

theorem sampledByte_eq (h : ∀ k : Fin 8, samples.getD (4 * (k.val + 1) + 2) true = b.getLsbD k.val) :
    sampledByte samples = b := by
  refine BitVec.eq_of_getLsbD_eq fun i hi => ?_
  have hbits : (sampledByte samples).getLsbD i =
      (allEight.map (fun k => samples.getD (4 * (k.val + 1) + 2) true)).getD i false := BitVec.getLsbD_ofBoolListLE
  have hmap : allEight.map (fun k => samples.getD (4 * (k.val + 1) + 2) true) = allEight.map (fun k => b.getLsbD k.val) :=
    List.map_congr_left fun k _ => h k
  rw [hbits, hmap]
  interval_cases i <;> rfl

/-- The third sample of each data bit of a byte on the line is that bit. -/
theorem sampledByte_lineSamples (b : Byte) (stop : Bool) : sampledByte (lineSamples ((lineBits b).dropLast ++ [stop])) = b :=
  sampledByte_eq fun k => by fin_cases k <;> rfl

/-! ## The receiver between bytes and in a byte (R153) -/

theorem Link.samples_mark (h : l.rxLine = .looking) : ∀ n : Nat, (List.replicate n true).foldl Link.sample l = l
  | 0 => rfl
  | n + 1 => by
    have hs : l.sample true = l := by
      unfold Link.sample
      rw [h]
      rfl
    rw [List.replicate_succ, List.foldl_cons, hs]
    exact Link.samples_mark h n

theorem Link.sample_waits (h : l.rxLine = .awaitMark ∨ l.rxLine = .broken) :
    l.sample false = l ∧ l.sample true = { l with rxLine := .looking } := by
  unfold Link.sample
  rcases h with h | h <;> rw [h] <;> exact ⟨rfl, rfl⟩

theorem Link.samples_space (h : l.rxLine = .awaitMark ∨ l.rxLine = .broken) :
    ∀ n : Nat, (List.replicate n false).foldl Link.sample l = l
  | 0 => rfl
  | n + 1 => by
    rw [List.replicate_succ, List.foldl_cons, (Link.sample_waits h).1]
    exact Link.samples_space h n

theorem Link.samples_inByte {first : List Bool} : ∀ {l : Link} {later : List Bool}, l.rxLine = .inByte first →
    first.length + later.length ≤ 38 → later.foldl Link.sample l = { l with rxLine := .inByte (first ++ later) }
  | l, [], h, _ => by
    rw [List.append_nil, ← h]
    rfl
  | l, x :: later, h, hlen => by
    rw [List.length_cons] at hlen
    have hs : l.sample x = { l with rxLine := .inByte (first ++ [x]) } := by
      unfold Link.sample
      rw [h]
      exact if_pos (by omega)
    rw [List.foldl_cons, hs, Link.samples_inByte (first := first ++ [x]) rfl
      (by rw [List.length_append, List.length_singleton]; omega), List.append_assoc]
    rfl

theorem Link.samples_start (h : l.rxLine = .looking) (hlen : later.length < 38) :
    (false :: later).foldl Link.sample l = { l with rxLine := .inByte (false :: later) } := by
  have hs : l.sample false = { l with rxLine := .inByte [false] } := by
    unfold Link.sample
    rw [h]
    rfl
  rw [List.foldl_cons, hs, Link.samples_inByte (first := [false]) rfl (by rw [List.length_singleton]; omega)]
  rfl

/-- The 39th sample from the start bit takes the byte. -/
theorem Link.samples_byte (h : l.rxLine = .looking) (hlen : later.length = 37) (level : Bool) :
    (false :: later ++ [level]).foldl Link.sample l =
      ({ l with rxLine := if level then .looking else .awaitMark } : Link).receive (sampledByte (false :: later)) := by
  rw [List.foldl_append, Link.samples_start h (by omega), List.foldl_cons, List.foldl_nil]
  unfold Link.sample
  exact if_neg (by rw [List.length_cons]; omega)

/-- A byte received while hunting with an empty buffer begins a candidate if it is SYNC. -/
theorem Link.receive_empty (h : l.rxBuffer = []) (b : Byte) :
    l.receive b = { l with rxGap := false, rxBuffer := if b = 0x5B then [{ val := b, late := l.rxGap }] else [] } := by
  unfold Link.receive
  rw [h]
  by_cases hb : b = 0x5B
  · subst hb
    rfl
  · rw [if_neg hb]
    exact if_neg hb

/-! ## FRAME_RECEIVED and LNKCLK -/

theorem exec_frameReceived (hp : s.power = .ready) (hc : s.lnkclk = true) (samples : List Bool) :
    exec (.frameReceived samples) s = .next ({ s with link := samples.foldl Link.sample s.link } : State).arbitrate :=
  State.event_to hp (f := Instr.effect (.frameReceived samples)) (if_pos hc)

/-- With LNKCLK stopped the transmitter picks nothing. -/
theorem State.arbitrate_stopped (h : s.lnkclk = false) : s.arbitrate = s := by
  unfold State.arbitrate State.txFree
  rw [h, Bool.and_false, Bool.false_and]
  rfl

/-- An event that does nothing while LNKCLK is stopped. -/
theorem State.event_stopped {f : State → State} (h : s.lnkclk = false) (hf : f s = s) : s.event f = .next s := by
  unfold State.event
  rw [hf, State.arbitrate_stopped h, ite_self]

theorem RxLine.afterStop_eq (r : RxLine) : r.afterStop = if r = .broken then .broken else .awaitMark := by
  cases r <;> rfl

theorem RxLine.atMark_eq (r : RxLine) : r.atMark = match r with
    | .inByte samples => .inByte samples
    | _ => .looking := by
  cases r <;> rfl

/-- The 39 samples of a byte as the list from the start bit and the sample of the stop bit. -/
theorem byteSamples_split (samples : Vector Bool 39) (h : samples[0] = false) : ∃ later : List Bool,
    later.length = 37 ∧ samples.toList = false :: later ++ [samples[38]]
      ∧ ∀ k : Fin 8, (false :: later).getD (4 * (k.val + 1) + 2) true = samples[4 * (k.val + 1) + 2] := by
  have hlen : samples.toList.length = 39 := samples.length_toList
  have hget (i : Nat) (hi : i < 39) : samples.toList[i]'(hlen.symm ▸ hi) = samples[i] := samples.getElem_toList _
  have hhead : false :: (samples.toList.take 38).tail = samples.toList.take 38 := by
    refine List.ext_getElem (by simp) fun i h1 h2 => ?_
    cases i with
    | zero => simpa using h.symm
    | succ i => simp
  refine ⟨(samples.toList.take 38).tail, by simp, ?_, fun k => ?_⟩
  · rw [hhead]
    refine List.ext_getElem (by simp) fun i h1 h2 => ?_
    rw [List.getElem_append]
    split
    · simp
    next hi =>
      have : i = 38 := by
        simp at h1 hi
        omega
      subst this
      simp
  · rw [hhead, List.getD_eq_getElem?_getD, List.getElem?_eq_getElem (by simp; omega)]
    simp

/-- Settles O45: bytes on the line, the receiver's samples, and the rows of LNKCLK. -/
theorem lineCodesBytesAndStopsWithItsClock : Obligations.LineCodesBytesAndStopsWithItsClock := by
  unfold Obligations.LineCodesBytesAndStopsWithItsClock
  refine ⟨⟨fun b => ⟨rfl, rfl, rfl⟩, sampledByte_lineSamples, by decide +kernel⟩, fun s hp hc => ?_, fun s => ?_⟩
  · intro sees waits
    have hsees {samples : List Bool} {l : Link} (h : samples.foldl Link.sample s.link = l) : sees samples l := by
      rw [← h]
      exact exec_frameReceived hp hc samples
    refine ⟨fun hlook => ⟨fun n => hsees (Link.samples_mark hlook n), fun later hlen => hsees (Link.samples_start hlook hlen),
      fun samples b h0 hb => ?_⟩, fun n hw => ⟨hsees (Link.samples_space hw n), hsees ?_⟩⟩
    · intro line
      obtain ⟨later, hlen, hsplit, hget⟩ := byteSamples_split samples h0
      have hbyte : sampledByte (false :: later) = b := sampledByte_eq fun k => (hget k).trans (hb k).symm
      have hreceive : samples.toList.foldl Link.sample s.link = ({ s.link with rxLine := line } : Link).receive b := by
        rw [hsplit, Link.samples_byte hlook hlen, hbyte]
      exact ⟨hsees hreceive, fun hbuf => hsees (hreceive.trans (Link.receive_empty (l := { s.link with rxLine := line }) hbuf b))⟩
    · rw [List.foldl_append, Link.samples_space hw n]
      exact (Link.sample_waits hw).2
  · refine ⟨rfl, fun hc => ?_, fun hc => ?_, ?_, fun hc => ⟨State.arbitrate_stopped hc, fun samples => ?_, ?_, fun p hp => ?_⟩⟩
    · show Host.Outcome.next (State.arbitrate { s with lnkclk := true, link := { s.link with
        rxLine := if s.lnkclk then s.link.rxLine else s.link.rxLine.afterStop } }) = _
      rw [hc, if_pos rfl, ← hc]
    · show Host.Outcome.next (State.arbitrate { s with lnkclk := true, link := { s.link with
        rxLine := if s.lnkclk then s.link.rxLine else s.link.rxLine.afterStop } }) = _
      rw [hc, if_neg Bool.false_ne_true, RxLine.afterStop_eq]
    · show Host.Outcome.next { s with link := { s.link with rxLine := s.link.rxLine.atMark } } = _
      rw [RxLine.atMark_eq] <;> rfl
    · exact State.event_stopped hc (if_neg (by simp [hc]))
    · refine State.event_stopped (f := Instr.effect .transmitEnd) hc ?_
      show (match s.link.tx with
        | some f => if s.lnkclk then s.frameDone f else s
        | none => s) = s
      split
      · exact if_neg (by simp [hc])
      · rfl
    · rw [exec_command (payload_decodeCommand p),
        runCommand_waits hp ((s.canExecute_eq_false_iff p).mpr (.inr (.inl hc))), State.arbitrate_stopped hc]

end

end Sys2Proof.Machine
end

section
/-!
Candidates judged, and the hunt through a whole buffer (R154 to R156, R158).
-/

namespace Sys2Proof.Machine

section
variable {s : State} {l : Link} {b y kind l0 l1 : RxByte} {bytes rest tail left more : List RxByte} {payload : List Byte}

/-! ## Candidates (R154 to R156) -/

/-- A byte of the list came after a receive gap. -/
def hasLate (bytes : List RxByte) : Prop := ∃ x ∈ bytes, x.late = true

theorem any_late_iff : bytes.any (fun b => b.late) = true ↔ hasLate bytes := List.any_eq_true

theorem judgeCandidate_lateHead (h : hasLate (bytes.take 3)) : judgeCandidate bytes = .late := by
  match bytes with
  | [] | [_] | [_, _] => exact if_pos (any_late_iff.mpr h)
  | kind :: l0 :: l1 :: tail =>
    obtain ⟨x, hx, hl⟩ := h
    exact if_pos (by
      simp only [List.take_succ_cons, List.take_zero, List.mem_cons, List.not_mem_nil, or_false] at hx
      rcases hx with rfl | rfl | rfl <;> simp [hl])

theorem judgeCandidate_short (hlen : bytes.length < 3) (h : ¬hasLate bytes) : judgeCandidate bytes = .more := by
  match bytes with
  | [] => rfl
  | [_] | [_, _] => exact if_neg (t := Verdict.late) fun hl => h (any_late_iff.mp hl)
  | _ :: _ :: _ :: _ =>
    simp only [List.length_cons] at hlen
    omega

/-- The length that the two length bytes of a candidate spell. -/
def candidateLength (l0 l1 : RxByte) : Nat := leValue [l0.val, l1.val]

/-- The CRC field of a candidate agrees with its bytes (R154). -/
def crcAgrees (kind l0 l1 : RxByte) (tail : List RxByte) : Prop :=
  leValue (((tail.drop (candidateLength l0 l1)).take 2).map (fun x => x.val)) =
    (crc (kind.val :: l0.val :: l1.val :: (tail.take (candidateLength l0 l1)).map (fun x => x.val))).toNat

theorem judgeCandidate_behindLength (h : ¬hasLate [kind, l0, l1]) :
    judgeCandidate (kind :: l0 :: l1 :: tail) =
      let len := candidateLength l0 l1
      if 1040 < len then .tooLong
      else if (tail.take (len + 2)).any (fun b => b.late) = true then .late
      else if (tail.take (len + 2)).length < len + 2 then .more
      else if leValue ((((tail.take (len + 2)).drop len)).map (fun x => x.val)) =
          (crc (kind.val :: l0.val :: l1.val :: ((tail.take (len + 2)).take len).map (fun x => x.val))).toNat then
        .frame kind.val (((tail.take (len + 2)).take len).map (fun x => x.val)) (tail.drop (len + 2))
      else .badCrc :=
  if_neg fun hl => h (any_late_iff.mp (by simpa [or_assoc] using hl))

theorem judgeCandidate_tooLong (h : ¬hasLate [kind, l0, l1]) (hlen : 1040 < candidateLength l0 l1) :
    judgeCandidate (kind :: l0 :: l1 :: tail) = .tooLong :=
  (judgeCandidate_behindLength h).trans (if_pos hlen)

theorem judgeCandidate_late (h : ¬hasLate [kind, l0, l1]) (hlen : candidateLength l0 l1 ≤ 1040)
    (hown : hasLate (tail.take (candidateLength l0 l1 + 2))) : judgeCandidate (kind :: l0 :: l1 :: tail) = .late :=
  (judgeCandidate_behindLength h).trans ((if_neg (Nat.not_lt.mpr hlen)).trans (if_pos (any_late_iff.mpr hown)))

theorem judgeCandidate_more (h : ¬hasLate [kind, l0, l1]) (hlen : candidateLength l0 l1 ≤ 1040)
    (hown : ¬hasLate (tail.take (candidateLength l0 l1 + 2))) (hshort : tail.length < candidateLength l0 l1 + 2) :
    judgeCandidate (kind :: l0 :: l1 :: tail) = .more :=
  (judgeCandidate_behindLength h).trans ((if_neg (Nat.not_lt.mpr hlen)).trans
    ((if_neg fun hl => hown (any_late_iff.mp hl)).trans (if_pos (by rw [List.length_take]; omega))))

/-- A candidate that is all there is judged by its CRC field. -/
theorem judgeCandidate_whole (h : ¬hasLate [kind, l0, l1]) (hlen : candidateLength l0 l1 ≤ 1040)
    (hown : ¬hasLate (tail.take (candidateLength l0 l1 + 2))) (hwhole : candidateLength l0 l1 + 2 ≤ tail.length) :
    (crcAgrees kind l0 l1 tail → judgeCandidate (kind :: l0 :: l1 :: tail) =
      .frame kind.val ((tail.take (candidateLength l0 l1)).map (fun x => x.val)) (tail.drop (candidateLength l0 l1 + 2)))
    ∧ (¬crcAgrees kind l0 l1 tail → judgeCandidate (kind :: l0 :: l1 :: tail) = .badCrc) := by
  have hj := judgeCandidate_behindLength (tail := tail) h
  have hdrop : (tail.take (candidateLength l0 l1 + 2)).drop (candidateLength l0 l1) =
      (tail.drop (candidateLength l0 l1)).take 2 := by
    rw [List.drop_take]
    congr 1
    omega
  have htake : (tail.take (candidateLength l0 l1 + 2)).take (candidateLength l0 l1) = tail.take (candidateLength l0 l1) := by
    rw [List.take_take, Nat.min_eq_left (by omega)]
  dsimp only at hj
  rw [if_neg (Nat.not_lt.mpr hlen), if_neg (fun hl => hown (any_late_iff.mp hl)),
    if_neg (by rw [List.length_take]; omega), hdrop, htake] at hj
  exact ⟨fun ha => hj.trans (if_pos ha), fun ha => hj.trans (if_neg ha)⟩

/-- A verdict other than that bytes are missing does not change when bytes follow. -/
theorem judgeCandidate_append (h : judgeCandidate bytes ≠ .more) (more : List RxByte) :
    judgeCandidate (bytes ++ more) = match judgeCandidate bytes with
      | .frame kind payload left => .frame kind payload (left ++ more)
      | verdict => verdict := by
  by_cases hhead : hasLate (bytes.take 3)
  · have happ : hasLate ((bytes ++ more).take 3) := by
      obtain ⟨x, hx, hl⟩ := hhead
      exact ⟨x, by rw [List.take_append]; exact List.mem_append_left _ hx, hl⟩
    rw [judgeCandidate_lateHead hhead, judgeCandidate_lateHead happ]
  · match bytes with
    | [] => exact absurd rfl h
    | [a] => exact absurd (judgeCandidate_short (bytes := [a]) (by simp) hhead) h
    | [a, c] => exact absurd (judgeCandidate_short (bytes := [a, c]) (by simp) hhead) h
    | kind :: l0 :: l1 :: tail =>
      have hh : ¬hasLate [kind, l0, l1] := hhead
      show judgeCandidate (kind :: l0 :: l1 :: (tail ++ more)) = _
      rcases Nat.lt_or_ge 1040 (candidateLength l0 l1) with hlen | hlen
      · rw [judgeCandidate_tooLong hh hlen, judgeCandidate_tooLong hh hlen]
      · by_cases hown : hasLate (tail.take (candidateLength l0 l1 + 2))
        · have happ : hasLate ((tail ++ more).take (candidateLength l0 l1 + 2)) := by
            obtain ⟨x, hx, hl⟩ := hown
            exact ⟨x, by rw [List.take_append]; exact List.mem_append_left _ hx, hl⟩
          rw [judgeCandidate_late hh hlen hown, judgeCandidate_late hh hlen happ]
        · rcases Nat.lt_or_ge tail.length (candidateLength l0 l1 + 2) with hs | hwhole
          · exact absurd (judgeCandidate_more hh hlen hown hs) h
          · have htake (n : Nat) (hn : n ≤ candidateLength l0 l1 + 2) : (tail ++ more).take n = tail.take n := by
              rw [List.take_append_of_le_length (by omega)]
            have hdrop (n : Nat) (hn : n ≤ candidateLength l0 l1 + 2) : (tail ++ more).drop n = tail.drop n ++ more := by
              rw [List.drop_append_of_le_length (by omega)]
            have hfield : ((tail ++ more).drop (candidateLength l0 l1)).take 2 = (tail.drop (candidateLength l0 l1)).take 2 := by
              rw [hdrop _ (by omega), List.take_append_of_le_length (by rw [List.length_drop]; omega)]
            have hagree : crcAgrees kind l0 l1 (tail ++ more) ↔ crcAgrees kind l0 l1 tail := by
              unfold crcAgrees
              rw [hfield, htake _ (by omega)]
            obtain ⟨hgood, hbad⟩ := judgeCandidate_whole hh hlen hown hwhole
            obtain ⟨hgood', hbad'⟩ := judgeCandidate_whole (tail := tail ++ more) hh hlen
              (by rw [htake _ (Nat.le_refl _)]; exact hown) (by rw [List.length_append]; omega)
            by_cases ha : crcAgrees kind l0 l1 tail
            · rw [hgood ha, hgood' (hagree.mpr ha), htake _ (by omega), hdrop _ (Nat.le_refl _)]
            · rw [hbad ha, hbad' (mt hagree.mp ha)]

/-! ## The hunt through the whole buffer (R154, R156) -/

/-- The link once the receiver has worked through its buffer. -/
def Link.hunted (l : Link) : Link := Link.hunt l.rxBuffer.length l

/-- More rounds than the buffer has bytes do nothing more. -/
theorem Link.hunt_eq_hunted : ∀ (n : Nat) (l : Link), l.rxBuffer.length ≤ n → Link.hunt n l = l.hunted := by
  have go : ∀ (m n : Nat) (l : Link), l.rxBuffer.length ≤ m → l.rxBuffer.length ≤ n → Link.hunt m l = Link.hunt n l := by
    intro m
    induction m with
    | zero =>
      intro n l hm _
      have hl : l.rxBuffer = [] := List.length_eq_zero_iff.mp (Nat.le_zero.mp hm)
      cases n with
      | zero => rfl
      | succ n =>
        unfold Link.hunt
        rw [hl]
    | succ m ih =>
      intro n l hm hn
      cases hb : l.rxBuffer with
      | nil =>
        cases n with
        | zero =>
          unfold Link.hunt
          rw [hb]
        | succ n =>
          unfold Link.hunt
          rw [hb]
      | cons y rest =>
        rw [hb, List.length_cons] at hm hn
        cases n with
        | zero => omega
        | succ n =>
          have hrest (l' : Link) (h' : l'.rxBuffer.length ≤ rest.length) : Link.hunt m l' = Link.hunt n l' :=
            ih n l' (by omega) (by omega)
          unfold Link.hunt
          rw [hb]
          dsimp only
          split
          · cases hj : judgeCandidate rest with
            | more => rfl
            | late => exact hrest _ (Nat.le_refl _)
            | tooLong => exact hrest _ (Nat.le_refl _)
            | badCrc => exact hrest _ (Nat.le_refl _)
            | frame kind payload left =>
              exact hrest _ (by rw [Link.takeFrame_rxBuffer]; exact judgeCandidate_frame hj)
          · exact hrest _ (Nat.le_refl _)
  exact fun n l h => go n _ l h (Nat.le_refl _)

theorem Link.hunted_nil (h : l.rxBuffer = []) : l.hunted = l := by
  unfold Link.hunted
  rw [h]
  rfl

/-- A byte that is not SYNC is passed over. -/
theorem Link.hunted_skip (h : l.rxBuffer = y :: rest) (hy : y.val ≠ 0x5B) : l.hunted = ({ l with rxBuffer := rest } : Link).hunted := by
  show _ = Link.hunt rest.length { l with rxBuffer := rest }
  rw [Link.hunted, h, List.length_cons, Link.hunt, h]
  exact if_neg hy

/-- A SYNC byte begins a candidate, which is kept, discarded or taken. -/
theorem Link.hunted_sync (h : l.rxBuffer = y :: rest) (hy : y.val = 0x5B) :
    l.hunted = match judgeCandidate rest with
      | .more => l
      | .late => ({ l with rxBuffer := rest } : Link).hunted
      | .tooLong => ({ l with rxBuffer := rest, lengthErrors := satInc 65535 l.lengthErrors } : Link).hunted
      | .badCrc => ({ l with rxBuffer := rest, crcErrors := satInc 65535 l.crcErrors } : Link).hunted
      | .frame kind payload left => (({ l with rxBuffer := left } : Link).takeFrame kind payload).hunted := by
  rw [Link.hunted, h, List.length_cons, Link.hunt, h]
  dsimp only
  rw [if_pos (show y.val = Config.sync from hy)]
  cases hj : judgeCandidate rest with
  | more => rfl
  | late => rfl
  | tooLong => rfl
  | badCrc => rfl
  | frame kind payload left =>
    exact Link.hunt_eq_hunted _ _ (by rw [Link.takeFrame_rxBuffer]; exact judgeCandidate_frame hj)

theorem Link.hunted_more (h : l.rxBuffer = y :: rest) (hy : y.val = 0x5B) (hj : judgeCandidate rest = .more) : l.hunted = l := by
  rw [Link.hunted_sync h hy, hj]

theorem Link.hunted_late (h : l.rxBuffer = y :: rest) (hy : y.val = 0x5B) (hj : judgeCandidate rest = .late) :
    l.hunted = ({ l with rxBuffer := rest } : Link).hunted := by
  rw [Link.hunted_sync h hy, hj]

theorem Link.hunted_tooLong (h : l.rxBuffer = y :: rest) (hy : y.val = 0x5B) (hj : judgeCandidate rest = .tooLong) :
    l.hunted = ({ l with rxBuffer := rest, lengthErrors := satInc 65535 l.lengthErrors } : Link).hunted := by
  rw [Link.hunted_sync h hy, hj]

theorem Link.hunted_badCrc (h : l.rxBuffer = y :: rest) (hy : y.val = 0x5B) (hj : judgeCandidate rest = .badCrc) :
    l.hunted = ({ l with rxBuffer := rest, crcErrors := satInc 65535 l.crcErrors } : Link).hunted := by
  rw [Link.hunted_sync h hy, hj]

theorem Link.hunted_frame {kind : Byte} (h : l.rxBuffer = y :: rest) (hy : y.val = 0x5B)
    (hj : judgeCandidate rest = .frame kind payload left) :
    l.hunted = (({ l with rxBuffer := left } : Link).takeFrame kind payload).hunted := by
  rw [Link.hunted_sync h hy, hj]

/-- Bytes none of which is SYNC are all passed over. -/
theorem Link.hunted_noSync : ∀ {bytes : List RxByte} {l : Link}, l.rxBuffer = bytes → (∀ x ∈ bytes, x.val ≠ 0x5B) →
    l.hunted = { l with rxBuffer := [] }
  | [], l, h, _ => by
    rw [Link.hunted_nil h, ← h]
  | y :: rest, l, h, hno => by
    rw [Link.hunted_skip h (hno y List.mem_cons_self),
      Link.hunted_noSync (l := { l with rxBuffer := rest }) rfl fun x hx => hno x (List.mem_cons_of_mem _ hx)]

theorem Link.takeFrame_withBuffer (l : Link) (kind : Byte) (payload : List Byte) (bytes : List RxByte) :
    ({ l with rxBuffer := bytes } : Link).takeFrame kind payload = { l.takeFrame kind payload with rxBuffer := bytes } := by
  unfold Link.takeFrame Link.enqueue
  split
  · dsimp only
    split <;> rfl
  · rfl

/-- Working through the buffer as the bytes come is working through all of them at the end. -/
theorem Link.hunted_append (more : List RxByte) : ∀ (n : Nat) (l : Link), l.rxBuffer.length ≤ n →
    ({ l.hunted with rxBuffer := l.hunted.rxBuffer ++ more } : Link).hunted =
      ({ l with rxBuffer := l.rxBuffer ++ more } : Link).hunted
  | 0, l, hn => by
    rw [Link.hunted_nil (l := l) (List.length_eq_zero_iff.mp (Nat.le_zero.mp hn))]
  | n + 1, l, hn => by
    cases hb : l.rxBuffer with
    | nil => rw [Link.hunted_nil (l := l) hb, hb]
    | cons y rest =>
      rw [hb, List.length_cons] at hn
      have happ : ({ l with rxBuffer := (y :: rest) ++ more } : Link).rxBuffer = y :: (rest ++ more) := rfl
      have go (l' : Link) (h' : l'.rxBuffer.length ≤ rest.length) :
          ({ l'.hunted with rxBuffer := l'.hunted.rxBuffer ++ more } : Link).hunted =
            ({ l' with rxBuffer := l'.rxBuffer ++ more } : Link).hunted := Link.hunted_append more n l' (by omega)
      by_cases hy : y.val = 0x5B
      · by_cases hmore : judgeCandidate rest = .more
        · rw [Link.hunted_more hb hy hmore, hb]
        · have hj := judgeCandidate_append hmore more
          cases hv : judgeCandidate rest with
          | more => exact absurd hv hmore
          | late =>
            rw [hv] at hj
            rw [Link.hunted_late hb hy hv, Link.hunted_late happ hy hj]
            exact go { l with rxBuffer := rest } (Nat.le_refl _)
          | tooLong =>
            rw [hv] at hj
            rw [Link.hunted_tooLong hb hy hv, Link.hunted_tooLong happ hy hj]
            exact go { l with rxBuffer := rest, lengthErrors := satInc 65535 l.lengthErrors } (Nat.le_refl _)
          | badCrc =>
            rw [hv] at hj
            rw [Link.hunted_badCrc hb hy hv, Link.hunted_badCrc happ hy hj]
            exact go { l with rxBuffer := rest, crcErrors := satInc 65535 l.crcErrors } (Nat.le_refl _)
          | frame kind payload left =>
            rw [hv] at hj
            have htaken := (Link.hunted_frame happ hy hj).trans
              (congrArg Link.hunted (Link.takeFrame_withBuffer l kind payload (left ++ more)))
            rw [Link.hunted_frame hb hy hv, htaken, Link.takeFrame_withBuffer l kind payload left]
            exact go { l.takeFrame kind payload with rxBuffer := left } (judgeCandidate_frame hv)
      · rw [Link.hunted_skip hb hy, Link.hunted_skip happ hy]
        exact go { l with rxBuffer := rest } (Nat.le_refl _)

/-! ## The gap (R155, R156) -/

/-- The receiver after a gap has truncated the candidate whose SYNC byte the bytes stand behind. -/
def Link.gapped (l : Link) (behind : List RxByte) : Link :=
  { l with rxBuffer := behind, rxGap := true, truncated := satInc 65535 l.truncated }

theorem exec_receiveGapExpiry (hp : s.power = .ready) (hb : s.link.rxBuffer = b :: rest) (hg : s.link.rxGap = false) :
    exec .receiveGapExpiry s = .next ({ s with link := (s.link.gapped rest).hunted } : State).arbitrate := by
  refine State.event_to hp (f := Instr.effect .receiveGapExpiry) ?_
  show ({ s with link := match s.link.rxBuffer, s.link.rxGap with
    | _ :: rest, false => Link.hunt rest.length
        { s.link with rxBuffer := rest, rxGap := true, truncated := satInc Config.sat16 s.link.truncated }
    | _, _ => s.link } : State) = _
  rw [hb, hg]
  rfl

theorem exec_receiveGapExpiry_idle (hp : s.power = .ready) (h : s.link.rxBuffer = [] ∨ s.link.rxGap = true) :
    exec .receiveGapExpiry s = .next s.arbitrate := by
  refine State.event_to hp (f := Instr.effect .receiveGapExpiry) ?_
  show ({ s with link := match s.link.rxBuffer, s.link.rxGap with
    | _ :: rest, false => Link.hunt rest.length
        { s.link with rxBuffer := rest, rxGap := true, truncated := satInc Config.sat16 s.link.truncated }
    | _, _ => s.link } : State) = s
  rcases h with h | h
  · rw [h]
  · rw [h]
    cases s.link.rxBuffer <;> rfl

/-- A command taken behind the gap is taken as before it. -/
theorem Link.takeFrame_gapped (l : Link) (kind : Byte) (payload : List Byte) (left : List RxByte) :
    (l.gapped left).takeFrame kind payload =
      Link.gapped (if kind = 0x01 then
        (if l.commandQueue.length < 4 then { l with commandQueue := l.commandQueue ++ [payload] }
        else { l with overruns := if l.overruns < 65535 then l.overruns + 1 else l.overruns })
      else l) left := by
  unfold Link.takeFrame
  by_cases hk : kind = 0x01
  · rw [if_pos (show kind = Config.kindCommand from hk), if_pos hk]
    unfold Link.enqueue
    by_cases hq : l.commandQueue.length < 4
    · rw [if_pos (show (l.gapped left).commandQueue.length < Config.commandQueueSize from hq), if_pos hq]
      rfl
    · rw [if_neg (show ¬(l.gapped left).commandQueue.length < Config.commandQueueSize from hq), if_neg hq]
      rfl
  · rw [if_neg (show ¬kind = Config.kindCommand from hk), if_neg hk]

/-- Settles O44: the expiry of the gap timer, byte for byte behind the candidate's SYNC byte. -/
theorem receiveGapTruncatesTheCandidate : Obligations.ReceiveGapTruncatesTheCandidate := by
  unfold Obligations.ReceiveGapTruncatesTheCandidate
  intro s hp
  refine ⟨exec_receiveGapExpiry_idle hp, fun b rest hb hg hno => ?_, fun hg b => ?_⟩
  · rw [exec_receiveGapExpiry hp hb hg, Link.hunted_noSync (l := s.link.gapped rest) rfl hno]
    rfl
  · intro expires saturating late own
    have hexp (l : Link) (hl : l.rxGap = false) (behind : List RxByte) :
        expires l behind = .next ({ s with link := (l.gapped behind).hunted } : State).arbitrate :=
      exec_receiveGapExpiry (s := { s with link := { l with rxBuffer := b :: behind } }) hp rfl hl
    have hstep {l l' : Link} (hl : l.rxGap = false) (hl' : l'.rxGap = false) {behind left : List RxByte}
        (h : (l.gapped behind).hunted = (l'.gapped left).hunted) : expires l behind = expires l' left := by
      rw [hexp l hl, hexp l' hl', h]
    refine ⟨fun y rest hy => hstep hg hg (Link.hunted_skip rfl hy), fun y rest hy => ⟨fun hlate => ?_, fun hlen hlate => ?_, ?_⟩⟩
    · exact hstep hg hg (Link.hunted_late rfl hy (judgeCandidate_lateHead hlate))
    · rw [hexp _ hg, Link.hunted_more rfl hy (judgeCandidate_short hlen hlate)]
      rfl
    · intro kind l0 l1 tail hrest hlate len payload agrees
      subst hrest
      refine ⟨fun hlong => ?_, fun hlen hown => ?_, fun hlen hown hshort => ?_, fun hlen hown hwhole hbad => ?_,
        fun hlen hown hwhole hgood => ?_⟩
      · exact hstep (l' := { s.link with lengthErrors := saturating s.link.lengthErrors }) hg hg
          (Link.hunted_tooLong (l := s.link.gapped (y :: kind :: l0 :: l1 :: tail)) rfl hy (judgeCandidate_tooLong hlate hlong))
      · exact hstep hg hg (Link.hunted_late rfl hy (judgeCandidate_late hlate hlen hown))
      · rw [hexp _ hg, Link.hunted_more rfl hy (judgeCandidate_more hlate hlen hown hshort)]
        rfl
      · exact hstep (l' := { s.link with crcErrors := saturating s.link.crcErrors }) hg hg
          (Link.hunted_badCrc (l := s.link.gapped (y :: kind :: l0 :: l1 :: tail)) rfl hy ((judgeCandidate_whole hlate hlen hown hwhole).2 hbad))
      · refine hstep hg (by split_ifs <;> exact hg) ?_
        rw [Link.hunted_frame rfl hy ((judgeCandidate_whole hlate hlen hown hwhole).1 hgood)]
        exact congrArg Link.hunted (Link.takeFrame_gapped s.link kind.val payload _)

end

end Sys2Proof.Machine
end

section
/-!
Whole frames on the line (R153 to R156, R158, R173).
-/

namespace Sys2Proof.Machine

section
variable {s : State} {l : Link} {y : RxByte} {left pre rest : List RxByte} {kind c0 c1 : Byte} {payload : List Byte}

/-! ## A byte on the line (R153) -/

theorem lineSamples_split (b : Byte) : ∃ later : List Bool, later.length = 37
    ∧ lineSamples (lineBits b) = false :: later ++ [true] ++ [true] ∧ sampledByte (false :: later) = b :=
  ⟨(lineSamples (lineBits b)).tail.take 37, rfl, rfl, sampledByte_eq fun k => by fin_cases k <;> rfl⟩

theorem Link.receive_eq (l : Link) (b : Byte) : l.receive b =
    ({ l with rxBuffer := l.rxBuffer ++ [{ val := b, late := l.rxGap }], rxGap := false } : Link).hunted := rfl

/-- The hunt leaves the line and the mark of a gap. -/
theorem Link.hunted_line (l : Link) : l.hunted.rxLine = l.rxLine ∧ l.hunted.rxGap = l.rxGap := by
  unfold Link.hunted
  refine Link.hunt_keeps (P := fun m => m.rxLine = l.rxLine ∧ m.rxGap = l.rxGap) (fun _ _ h => h) (fun _ h => h) (fun _ h => h)
    (fun m p h => ?_) _ l ⟨rfl, rfl⟩
  unfold Link.enqueue
  split <;> exact h

/-- A byte sent is received, and the receiver looks for a start bit again. -/
theorem Link.samples_lineByte (h : l.rxLine = .looking) (b : Byte) : (lineSamples (lineBits b)).foldl Link.sample l = l.receive b := by
  obtain ⟨later, hlen, hsplit, hbyte⟩ := lineSamples_split b
  have hl : ({ l with rxLine := .looking } : Link) = l := by rw [← h]
  have hend : (l.receive b).rxLine = .looking := (Link.hunted_line _).1.trans h
  rw [hsplit, List.foldl_append, Link.samples_byte h hlen, hbyte]
  show Link.sample (Link.receive { l with rxLine := .looking } b) true = _
  rw [hl]
  exact Link.samples_mark hend 1

/-- A byte that came in time. -/
def onTime (b : Byte) : RxByte := { val := b, late := false }

/-- Bytes that come in time are worked through as if they had all been there at once. -/
theorem Link.samples_lineOf : ∀ {l : Link} (bytes : List Byte), l.rxLine = .looking → l.rxGap = false →
    (lineOf bytes).foldl Link.sample l.hunted = ({ l with rxBuffer := l.rxBuffer ++ bytes.map onTime } : Link).hunted
  | l, [], _, _ => by
    rw [List.map_nil, List.append_nil]
    rfl
  | l, b :: bytes, h, hg => by
    obtain ⟨hline, hgap⟩ := l.hunted_line
    have hreceive : l.hunted.receive b = ({ l with rxBuffer := l.rxBuffer ++ [onTime b] } : Link).hunted := by
      rw [Link.receive_eq, ← Link.hunted_append [onTime b] _ l (Nat.le_refl _), hgap, hg]
      have hsame : ({ l.hunted with rxGap := false } : Link) = l.hunted := by rw [← hg, ← hgap]
      exact congrArg (fun m : Link => ({ m with rxBuffer := m.rxBuffer ++ [onTime b] } : Link).hunted) hsame
    rw [lineOf, List.flatMap_cons, List.foldl_append, Link.samples_lineByte (hline.trans h), hreceive]
    refine (Link.samples_lineOf (l := { l with rxBuffer := l.rxBuffer ++ [onTime b] }) bytes h hg).trans ?_
    dsimp only
    rw [List.append_assoc]
    rfl

/-- The link looking for a start bit, with a buffer and no gap behind it. -/
def Link.between (l : Link) (bytes : List RxByte) : Link := { l with rxLine := .looking, rxBuffer := bytes, rxGap := false }

theorem Link.samples_idle {idle : Nat} (h : l.rxLine = .looking ∨ (0 < idle ∧ ∀ samples, l.rxLine ≠ .inByte samples)) :
    (List.replicate idle true).foldl Link.sample l = { l with rxLine := .looking } := by
  have hlook (h : l.rxLine = .looking) : ({ l with rxLine := .looking } : Link) = l := by rw [← h]
  rcases h with h | ⟨hpos, hno⟩
  · rw [Link.samples_mark h, hlook h]
  · obtain ⟨n, rfl⟩ : ∃ n, idle = n + 1 := ⟨idle - 1, by omega⟩
    have hfirst : l.sample true = { l with rxLine := .looking } := by
      cases hl : l.rxLine with
      | looking =>
        rw [hlook hl]
        exact Link.samples_mark hl 1
      | awaitMark => exact (Link.sample_waits (.inl hl)).2
      | broken => exact (Link.sample_waits (.inr hl)).2
      | inByte samples => exact absurd hl (hno samples)
    rw [List.replicate_succ, List.foldl_cons, hfirst]
    exact Link.samples_mark (l := { l with rxLine := .looking }) rfl n

/-- Bytes on the line, behind idle time, at a receiver that hunts with an empty buffer. -/
theorem Link.samples_frame {idle : Nat} (hb : l.rxBuffer = [])
    (h : l.rxLine = .looking ∨ (0 < idle ∧ ∀ samples, l.rxLine ≠ .inByte samples)) (b : Byte) (bytes : List Byte) :
    (List.replicate idle true ++ lineOf (b :: bytes)).foldl Link.sample l =
      (l.between ({ val := b, late := l.rxGap } :: bytes.map onTime)).hunted := by
  have hfirst : ({ l with rxLine := .looking } : Link).receive b = (l.between [{ val := b, late := l.rxGap }]).hunted := by
    rw [Link.receive_eq]
    dsimp only
    rw [hb]
    rfl
  rw [List.foldl_append, Link.samples_idle h, lineOf, List.flatMap_cons, List.foldl_append,
    Link.samples_lineByte (l := { l with rxLine := .looking }) rfl, hfirst]
  exact Link.samples_lineOf (l := l.between [{ val := b, late := l.rxGap }]) bytes rfl rfl

/-! ## A frame in the buffer (R154, R156, R173) -/

theorem Link.hunted_skips : ∀ {pre : List RxByte} {l : Link}, l.rxBuffer = pre ++ rest → (∀ x ∈ pre, x.val ≠ 0x5B) →
    l.hunted = ({ l with rxBuffer := rest } : Link).hunted
  | [], l, h, _ => by rw [show rest = l.rxBuffer from h.symm]
  | y :: pre, l, h, hno => by
    rw [Link.hunted_skip (l := l) (rest := pre ++ rest) h (hno y List.mem_cons_self),
      Link.hunted_skips (l := { l with rxBuffer := pre ++ rest }) rfl fun x hx => hno x (List.mem_cons_of_mem _ hx)]

theorem not_hasLate_onTime (bytes : List Byte) : ¬hasLate (bytes.map onTime) := by
  rintro ⟨x, hx, hl⟩
  obtain ⟨b, -, rfl⟩ := List.mem_map.mp hx
  cases hl

theorem map_val_onTime (bytes : List Byte) : (bytes.map onTime).map (fun x => x.val) = bytes := by
  rw [List.map_map]
  exact List.map_id _

/-- The bytes behind the SYNC byte of a frame of allowed length are judged by their CRC field. -/
theorem judgeCandidate_frameBody (hlen : payload.length ≤ 1040) (c0 c1 : Byte) (left : List RxByte) :
    (leValue [c0, c1] = (crc (frameBody kind payload)).toNat →
      judgeCandidate ((frameBody kind payload ++ [c0, c1]).map onTime ++ left) = .frame kind payload left)
    ∧ (leValue [c0, c1] ≠ (crc (frameBody kind payload)).toNat →
      judgeCandidate ((frameBody kind payload ++ [c0, c1]).map onTime ++ left) = .badCrc) := by
  obtain ⟨b0, b1, hle⟩ : ∃ b0 b1 : Byte, leBytes 2 payload.length = [b0, b1] := ⟨_, _, rfl⟩
  have hcand : candidateLength (onTime b0) (onTime b1) = payload.length := by
    unfold candidateLength
    exact (congrArg leValue hle).symm.trans (leValue_leBytes (by omega))
  have hbody : frameBody kind payload = kind :: b0 :: b1 :: payload := by
    rw [frameBody, hle]
    rfl
  have hbytes : (frameBody kind payload ++ [c0, c1]).map onTime ++ left =
      onTime kind :: onTime b0 :: onTime b1 :: ((payload ++ [c0, c1]).map onTime ++ left) := by
    rw [hbody]
    rfl
  have htail : (payload ++ [c0, c1]).map onTime ++ left = payload.map onTime ++ ([c0, c1].map onTime ++ left) := by
    rw [List.map_append, List.append_assoc]
  have hown : ((payload ++ [c0, c1]).map onTime ++ left).take (payload.length + 2) = (payload ++ [c0, c1]).map onTime :=
    List.take_left' (by simp)
  have hleft : ((payload ++ [c0, c1]).map onTime ++ left).drop (payload.length + 2) = left := List.drop_left' (by simp)
  have htake : ((payload ++ [c0, c1]).map onTime ++ left).take payload.length = payload.map onTime := by
    rw [htail]
    exact List.take_left' (by simp)
  have hfield : (((payload ++ [c0, c1]).map onTime ++ left).drop payload.length).take 2 = [c0, c1].map onTime := by
    rw [htail, List.drop_left' (by simp)]
    rfl
  obtain ⟨hgood, hbad⟩ := judgeCandidate_whole (kind := onTime kind) (l0 := onTime b0) (l1 := onTime b1)
    (tail := (payload ++ [c0, c1]).map onTime ++ left) (not_hasLate_onTime [kind, b0, b1]) (by rw [hcand]; exact hlen)
    (by rw [hcand, hown]; exact not_hasLate_onTime _) (by rw [hcand]; simp)
  have hagree : crcAgrees (onTime kind) (onTime b0) (onTime b1) ((payload ++ [c0, c1]).map onTime ++ left) ↔
      leValue [c0, c1] = (crc (frameBody kind payload)).toNat := by
    unfold crcAgrees
    rw [hcand, hfield, htake, map_val_onTime, map_val_onTime, hbody]
    rfl
  rw [hagree] at hgood hbad
  rw [hbytes]
  refine ⟨fun h => ?_, hbad⟩
  rw [hgood h, hcand, htake, map_val_onTime, hleft]
  rfl

/-- A whole frame in the buffer is taken, and the hunt goes on behind it. -/
theorem Link.hunted_frameBytes (hlen : payload.length ≤ 1040) (hy : y.val = 0x5B)
    (h : l.rxBuffer = y :: ((frameBody kind payload ++ leBytes 2 (crc (frameBody kind payload)).toNat).map onTime ++ left)) :
    l.hunted = (({ l with rxBuffer := left } : Link).takeFrame kind payload).hunted := by
  obtain ⟨c0, c1, hle⟩ : ∃ c0 c1 : Byte, leBytes 2 (crc (frameBody kind payload)).toNat = [c0, c1] := ⟨_, _, rfl⟩
  have hval : leValue [c0, c1] = (crc (frameBody kind payload)).toNat := by
    rw [← hle]
    exact leValue_leBytes (crc (frameBody kind payload)).isLt
  rw [hle] at h
  exact Link.hunted_frame h hy ((judgeCandidate_frameBody hlen c0 c1 left).1 hval)

/-- What becomes of the link when a frame has been taken (R154, R158). -/
def Link.takes (l : Link) (kind : Byte) (payload : List Byte) : Link :=
  if kind = 0x01 then
    (if l.commandQueue.length < 4 then { l with commandQueue := l.commandQueue ++ [payload] }
    else { l with overruns := if l.overruns < 65535 then l.overruns + 1 else l.overruns })
  else l

theorem Link.takeFrame_between (l : Link) (kind : Byte) (payload : List Byte) (bytes : List RxByte) :
    (l.between bytes).takeFrame kind payload = (l.takes kind payload).between bytes := by
  unfold Link.takeFrame Link.takes
  by_cases hk : kind = 0x01
  · rw [if_pos (show kind = Config.kindCommand from hk), if_pos hk]
    unfold Link.enqueue
    by_cases hq : l.commandQueue.length < 4
    · rw [if_pos (show (l.between bytes).commandQueue.length < Config.commandQueueSize from hq), if_pos hq]
      rfl
    · rw [if_neg (show ¬(l.between bytes).commandQueue.length < Config.commandQueueSize from hq), if_neg hq]
      rfl
  · rw [if_neg (show ¬kind = Config.kindCommand from hk), if_neg hk]

/-- A whole frame at the end of the buffer leaves the receiver hunting with an empty buffer. -/
theorem Link.hunted_lastFrame (hlen : payload.length ≤ 1040) (hy : y.val = 0x5B) (hleft : ∀ x ∈ left, x.val ≠ 0x5B) :
    (l.between (y :: ((frameBody kind payload ++ leBytes 2 (crc (frameBody kind payload)).toNat).map onTime ++ left))).hunted =
      (l.takes kind payload).between [] := by
  rw [Link.hunted_frameBytes hlen hy rfl]
  refine (congrArg Link.hunted (Link.takeFrame_between l kind payload left)).trans ?_
  rw [Link.hunted_noSync (l := (l.takes kind payload).between left) rfl hleft]
  rfl

theorem onTime_ne_sync {bytes : List Byte} (h : (0x5B : Byte) ∉ bytes) : ∀ x ∈ bytes.map onTime, x.val ≠ 0x5B := by
  intro x hx e
  obtain ⟨b, hb, rfl⟩ := List.mem_map.mp hx
  exact h (e ▸ hb)

theorem not_mem_append_pair {a : Byte} {bytes : List Byte} (h : a ∉ bytes) (h0 : c0 ≠ a) (h1 : c1 ≠ a) : a ∉ bytes ++ [c0, c1] := by
  simp [h, h0.symm, h1.symm]

/-- A frame whose CRC field is wrong is counted, and the hunt goes on behind its SYNC byte. -/
theorem Link.hunted_crcFault (hlen : payload.length ≤ 1040) (hy : y.val = 0x5B)
    (h : leValue [c0, c1] ≠ (crc (frameBody kind payload)).toNat) :
    (l.between (y :: (frameBody kind payload ++ [c0, c1]).map onTime)).hunted =
      (({ l with crcErrors := satInc 65535 l.crcErrors } : Link).between ((frameBody kind payload ++ [c0, c1]).map onTime)).hunted := by
  have hj := (judgeCandidate_frameBody hlen c0 c1 []).2 h
  rw [List.append_nil] at hj
  exact Link.hunted_badCrc (l := l.between (y :: (frameBody kind payload ++ [c0, c1]).map onTime)) rfl hy hj

/-- A candidate whose length is too large is counted, and the hunt goes on behind its SYNC byte. -/
theorem Link.hunted_lengthFault {k l0 l1 : Byte} {bytes : List Byte} (hy : y.val = 0x5B) (h : 1040 < leValue [l0, l1]) :
    (l.between (y :: (k :: l0 :: l1 :: bytes).map onTime)).hunted =
      (({ l with lengthErrors := satInc 65535 l.lengthErrors } : Link).between ((k :: l0 :: l1 :: bytes).map onTime)).hunted :=
  Link.hunted_tooLong (l := l.between (y :: (k :: l0 :: l1 :: bytes).map onTime)) rfl hy
    (judgeCandidate_tooLong (not_hasLate_onTime [k, l0, l1]) h)

/-- Settles O43: whole frames on the line, sound and faulty. -/
theorem wellFormedFrameIsTaken : Obligations.WellFormedFrameIsTaken := by
  unfold Obligations.WellFormedFrameIsTaken
  intro s idle hp hc hb hline receives saturating taken crcFault lengthFault kind payload hlen
  have hrec {b : Byte} {bytes : List Byte} {l : Link}
      (h : (s.link.between ({ val := b, late := s.link.rxGap } :: bytes.map onTime)).hunted = l.between []) :
      receives (b :: bytes) l := by
    refine (exec_frameReceived hp hc _).trans ?_
    rw [Link.samples_frame hb hline, h]
    rfl
  have hframe (k : Byte) (p : List Byte) : frameBytes k p = 0x5B :: (frameBody k p ++ leBytes 2 (crc (frameBody k p)).toNat) := rfl
  have hnil : ∀ x ∈ ([] : List RxByte), x.val ≠ 0x5B := fun _ hx => absurd hx List.not_mem_nil
  refine ⟨?_, fun c0 c1 hcrc hbody h0 h1 => ?_, fun l0 l1 hlong hk h0 h1 => ?_, fun hlong => ?_,
    fun outer c0 c1 hin hcrc ho h0 h1 hle => ?_⟩
  · rw [hframe]
    refine hrec ?_
    have h := Link.hunted_lastFrame (l := s.link) (y := { val := 0x5B, late := s.link.rxGap }) (kind := kind) hlen rfl hnil
    rw [List.append_nil] at h
    exact h
  · refine hrec ((Link.hunted_crcFault hlen rfl hcrc).trans (Link.hunted_noSync (l := crcFault.between _) rfl (onTime_ne_sync ?_)))
    exact not_mem_append_pair hbody h0 h1
  · refine hrec ((Link.hunted_lengthFault rfl hlong).trans (Link.hunted_noSync (l := lengthFault.between _) rfl (onTime_ne_sync ?_)))
    exact not_mem_append_pair (bytes := [kind]) (mt List.mem_singleton.mp hk.symm) h0 h1
  · obtain ⟨rest, hrest⟩ : ∃ rest : List Byte, frameBytes kind payload =
        0x5B :: kind :: BitVec.ofNat 8 payload.length :: rest := ⟨_, rfl⟩
    have hlong' : 1040 < leValue [kind, BitVec.ofNat 8 payload.length] := by
      simpa [leValue] using hlong
    refine hrec ?_
    rw [hrest, Link.hunted_lengthFault rfl hlong', ← hrest, hframe]
    have h := Link.hunted_lastFrame (l := lengthFault) (y := onTime 0x5B) (kind := kind) hlen rfl hnil
    rw [List.append_nil] at h
    exact h
  · have hfault := Link.hunted_crcFault (l := s.link) (y := { val := 0x5B, late := s.link.rxGap }) hin rfl hcrc
    have hsplit : (frameBody outer (frameBytes kind payload) ++ [c0, c1]).map onTime =
        (outer :: leBytes 2 (frameBytes kind payload).length).map onTime ++ (onTime 0x5B ::
          ((frameBody kind payload ++ leBytes 2 (crc (frameBody kind payload)).toNat).map onTime ++ [c0, c1].map onTime)) := by
      rw [frameBody, hframe]
      simp
    refine hrec (hfault.trans ?_)
    rw [hsplit]
    exact (Link.hunted_skips (l := crcFault.between _) rfl (onTime_ne_sync (List.not_mem_cons_of_ne_of_not_mem ho.symm hle))).trans
      (Link.hunted_lastFrame (l := crcFault) hlen rfl (onTime_ne_sync (not_mem_append_pair List.not_mem_nil h0 h1)))

end

end Sys2Proof.Machine
end

section
/-!
What expires is no matter of the levels of the inputs (R7, R21).
-/

namespace Sys2Proof.Machine

/-- The part with other levels at its inputs. -/
def State.atLevels (s : State) (lv : Levels) : State := { s with levels := lv }

section
variable (s : State) (lv : Levels) (g : Desc) (c : Chan) (k : SlotId) (x : Coarse) (m : Sample) (e : CloseEvent)

/-! ## The state under other levels -/

@[simp] theorem State.atLevels_desc : (s.atLevels lv).desc g = s.desc g := rfl
@[simp] theorem State.atLevels_chan : (s.atLevels lv).chan c = s.chan c := rfl
@[simp] theorem State.atLevels_slot : (s.atLevels lv).slot k = s.slot k := rfl
@[simp] theorem State.atLevels_tb : (s.atLevels lv).tb = s.tb := rfl
@[simp] theorem State.atLevels_cal : (s.atLevels lv).cal = s.cal := rfl
@[simp] theorem State.atLevels_link : (s.atLevels lv).link = s.link := rfl
@[simp] theorem State.atLevels_stream : (s.atLevels lv).stream = s.stream := rfl
@[simp] theorem State.atLevels_power : (s.atLevels lv).power = s.power := rfl
@[simp] theorem State.atLevels_modChan (f : Channel → Channel) : (s.atLevels lv).modChan c f = (s.modChan c f).atLevels lv := rfl
@[simp] theorem State.atLevels_modDesc (f : Descriptor → Descriptor) : (s.atLevels lv).modDesc g f = (s.modDesc g f).atLevels lv := rfl
@[simp] theorem State.atLevels_modSlot (f : Slot → Slot) : (s.atLevels lv).modSlot k f = (s.modSlot k f).atLevels lv := rfl
@[simp] theorem State.atLevels_modLink (f : Link → Link) : (s.atLevels lv).modLink f = (s.modLink f).atLevels lv := rfl
@[simp] theorem State.atLevels_atCount : (s.atLevels lv).atCount x = (s.atCount x).atLevels lv := rfl
@[simp] theorem State.atLevels_post (key : NoticeKey) : (s.atLevels lv).post key = (s.post key).atLevels lv := rfl
@[simp] theorem State.atLevels_postGate (r : GateReason) : (s.atLevels lv).postGate g r = (s.postGate g r).atLevels lv := rfl
@[simp] theorem State.atLevels_sampleAt : (s.atLevels lv).sampleAt x = s.sampleAt x := rfl
@[simp] theorem State.atLevels_sampleNow : (s.atLevels lv).sampleNow = s.sampleNow := rfl
@[simp] theorem State.atLevels_ready : (s.atLevels lv).ready g = s.ready g := rfl
@[simp] theorem State.atLevels_instantOf (w : Wait) : (s.atLevels lv).instantOf w = s.instantOf w := by cases w <;> rfl

theorem State.atLevels_foldl {α : Type} {f : State → α → State} (h : ∀ u a, f (u.atLevels lv) a = (f u a).atLevels lv)
    (l : List α) : l.foldl f (s.atLevels lv) = (l.foldl f s).atLevels lv :=
  List.foldl_hom (f := fun u : State => u.atLevels lv) h

theorem State.atLevels_forEight {f : Fin 8 → State → State} (h : ∀ g u, f g (u.atLevels lv) = (f g u).atLevels lv) :
    (s.atLevels lv).forEight f = (s.forEight f).atLevels lv :=
  State.atLevels_foldl s lv (fun u g => h g u) allEight

theorem State.atLevels_ite {p : Prop} [Decidable p] (a b : State) :
    (if p then a.atLevels lv else b.atLevels lv) = (if p then a else b).atLevels lv := by
  split <;> rfl

/-! ## Arming and publishing (R84 to R88, R124) -/

@[simp] theorem State.atLevels_openGate (st : Option Stamp) : (s.atLevels lv).openGate g st m = (s.openGate g st m).atLevels lv := rfl
@[simp] theorem State.atLevels_enterArmed : (s.atLevels lv).enterArmed g = (s.enterArmed g).atLevels lv := rfl
@[simp] theorem State.atLevels_enterOff : (s.atLevels lv).enterOff g = (s.enterOff g).atLevels lv := rfl

@[simp] theorem State.atLevels_arm : (s.atLevels lv).arm g m = (s.arm g m).atLevels lv := by
  unfold State.arm
  rw [State.atLevels_desc]
  split <;> rfl

@[simp] theorem State.atLevels_judge : (s.atLevels lv).judge g = (s.judge g).atLevels lv := by
  unfold State.judge
  simp only [State.atLevels_desc, State.atLevels_ready, State.atLevels_sampleNow, State.atLevels_arm, State.atLevels_ite]

@[simp] theorem State.atLevels_judgeAll : (s.atLevels lv).judgeAll = s.judgeAll.atLevels lv :=
  State.atLevels_forEight s lv fun g u => State.atLevels_judge u lv g

@[simp] theorem State.atLevels_enterWaitArm : (s.atLevels lv).enterWaitArm g = (s.enterWaitArm g).atLevels lv :=
  State.atLevels_judge
    (s.modDesc g (fun d => { d with state := .waitArm, ctx := none, timeoutAt := none, closeEvent := none })) lv g

@[simp] theorem State.atLevels_armEvent : (s.atLevels lv).armEvent g m = (s.armEvent g m).atLevels lv := by
  unfold State.armEvent
  simp only [State.atLevels_desc, State.atLevels_ready, State.atLevels_arm, State.atLevels_ite]

@[simp] theorem State.atLevels_chainFrom : (s.atLevels lv).chainFrom g = (s.chainFrom g).atLevels lv :=
  State.atLevels_forEight s lv fun h u => by
    simp only [State.atLevels_desc, State.atLevels_sampleNow, State.atLevels_armEvent, State.atLevels_ite]

@[simp] theorem State.atLevels_publish (r : Record) : (s.atLevels lv).publish k r = (s.publish k r).atLevels lv := by
  unfold State.publish State.present
  rw [State.atLevels_slot]
  split <;> rfl

/-! ## The end of a gate (R92, R93) -/

@[simp] theorem State.atLevels_goOn : (s.atLevels lv).goOn g e = (s.goOn g e).atLevels lv := by
  unfold State.goOn
  rw [State.atLevels_desc]
  split
  · rfl
  · rfl
  · rfl
  · rfl
  · split <;> rfl

@[simp] theorem State.atLevels_afterGate (old : Descriptor) : (s.atLevels lv).afterGate g old e = (s.afterGate g old e).atLevels lv := by
  unfold State.afterGate
  simp only [State.atLevels_modDesc, State.atLevels_desc, State.atLevels_goOn, State.atLevels_enterOff,
    State.atLevels_enterWaitArm, State.atLevels_ite]

@[simp] theorem State.atLevels_conclude : (s.atLevels lv).conclude g e = (s.conclude g e).atLevels lv := by
  unfold State.conclude
  simp only [State.atLevels_desc]
  cases (s.desc g).ctx with
  | none => rfl
  | some k =>
    simp only [State.atLevels_modDesc, State.atLevels_publish, State.atLevels_chainFrom, State.atLevels_afterGate]

@[simp] theorem State.atLevels_closeGate : (s.atLevels lv).closeGate g e = (s.closeGate g e).atLevels lv := by
  unfold State.closeGate
  rw [State.atLevels_conclude, State.atLevels_modDesc]
  exact State.atLevels_ite lv _ _

/-! ## Events at a descriptor (R89, R92) -/

@[simp] theorem State.atLevels_keepLast (st : Stamp) : (s.atLevels lv).keepLast g st m = (s.keepLast g st m).atLevels lv := rfl

@[simp] theorem State.atLevels_takeStamp (st : Stamp) : (s.atLevels lv).takeStamp g st m = (s.takeStamp g st m).atLevels lv := by
  unfold State.takeStamp
  rw [State.atLevels_desc]
  dsimp only
  cases (s.desc g).state with
  | off => rfl
  | waitArm => rfl
  | armed => rw [State.atLevels_openGate, State.atLevels_ite]
  | gateOpen =>
    cases (s.desc g).ctx with
    | none => rfl
    | some k => simp only [State.atLevels_closeGate, State.atLevels_keepLast, State.atLevels_ite]
  | closing =>
    cases (s.desc g).ctx with
    | none => rfl
    | some k => simp only [State.atLevels_closeGate, State.atLevels_keepLast, State.atLevels_ite]

@[simp] theorem State.atLevels_judgeEvent (ev : MenEvent) :
    (s.atLevels lv).judgeEvent g ev m = (s.judgeEvent g ev m).atLevels lv := by
  unfold State.judgeEvent
  rw [State.atLevels_desc]
  cases ev with
  | stamp st => exact State.atLevels_takeStamp s lv g m st
  | auxArm =>
    dsimp only
    rw [State.atLevels_armEvent, State.atLevels_ite]
  | auxOpen =>
    dsimp only
    rw [State.atLevels_openGate, State.atLevels_ite]
  | auxClose =>
    dsimp only
    rw [State.atLevels_closeGate, State.atLevels_ite]

@[simp] theorem State.atLevels_offer (ev : MenEvent) : (s.atLevels lv).offer g ev m = (s.offer g ev m).atLevels lv := by
  unfold State.offer
  rw [State.atLevels_desc, State.atLevels_judgeEvent, State.atLevels_modDesc, State.atLevels_ite, State.atLevels_ite]

@[simp] theorem State.atLevels_formation : (s.atLevels lv).formation g = (s.formation g).atLevels lv := by
  unfold State.formation
  simp only [State.atLevels_desc]
  cases (s.desc g).closeEvent with
  | none => rfl
  | some e =>
    simp only [State.atLevels_modDesc, State.atLevels_conclude]
    exact State.atLevels_foldl _ lv (fun u p => State.atLevels_offer u lv g p.2 p.1) _

/-! ## Expiries (R7) -/

@[simp] theorem State.atLevels_dropCal (outcome : CalOutcome) :
    (s.atLevels lv).dropCal outcome = (s.dropCal outcome).atLevels lv := by
  unfold State.dropCal
  rw [State.atLevels_cal]
  cases s.cal <;> rfl

@[simp] theorem State.atLevels_endCal (outcome : CalOutcome) : (s.atLevels lv).endCal outcome = (s.endCal outcome).atLevels lv := by
  unfold State.endCal
  rw [State.atLevels_cal, State.atLevels_dropCal]
  cases s.cal with
  | none => rfl
  | some r =>
    dsimp only
    rw [State.atLevels_post, State.atLevels_judgeAll]

@[simp] theorem State.atLevels_nominalEnd : (s.atLevels lv).nominalEnd g x = (s.nominalEnd g x).atLevels lv := by
  unfold State.nominalEnd
  simp only [State.atLevels_desc, State.atLevels_tb, State.atLevels_sampleAt, State.atLevels_modDesc, State.atLevels_closeGate,
    State.atLevels_ite]

@[simp] theorem State.atLevels_armedTimeout : (s.atLevels lv).armedTimeout g = (s.armedTimeout g).atLevels lv := by
  unfold State.armedTimeout
  rw [State.atLevels_modDesc, State.atLevels_postGate, State.atLevels_judge]

@[simp] theorem State.atLevels_timeout : (s.atLevels lv).timeout g x = (s.timeout g x).atLevels lv := by
  unfold State.timeout
  simp only [State.atLevels_desc]
  split
  · exact State.atLevels_armedTimeout s lv g
  · exact State.atLevels_closeGate s lv g _
  · exact State.atLevels_closeGate s lv g _
  · rfl

@[simp] theorem State.atLevels_expire (w : Wait) : (s.atLevels lv).expire w x = (s.expire w x).atLevels lv := by
  cases w with
  | holdoff c => rfl
  | deadTime c => rfl
  | deadline => exact State.atLevels_endCal s lv .osc
  | nominalEnd g => exact State.atLevels_nominalEnd s lv g x
  | timeout g => exact State.atLevels_timeout s lv g x
  | record g => exact State.atLevels_formation s lv g

@[simp] theorem State.atLevels_arbitrate : (s.atLevels lv).arbitrate = s.arbitrate.atLevels lv := by
  have hpick : (s.atLevels lv).pick = s.pick.atLevels lv := by
    unfold State.pick
    rw [State.atLevels_link, State.atLevels_stream]
    split <;> rfl
  unfold State.arbitrate
  rw [hpick]
  exact State.atLevels_ite lv _ _

/-- One round over the waits. -/
theorem State.atLevels_settleOnce : (s.atLevels lv).settleOnce = s.settleOnce.atLevels lv :=
  State.atLevels_foldl s lv (fun u w => by
    rw [State.atLevels_instantOf, State.atLevels_tb]
    cases u.instantOf w with
    | none => rfl
    | some x =>
      dsimp only
      rw [State.atLevels_expire, State.atLevels_arbitrate, State.atLevels_ite]) Wait.all

end

end Sys2Proof.Machine
end

section
/-!
The expiry of holdoffs and dead times, and the counter's way to a later edge (R7, R30, R42).
-/

namespace Sys2Proof.Machine

section
variable {s t : State} {x tick : Coarse} {far : Nat}

/-! ## How far the counter goes at once (R7) -/

/-- The counter goes at most as far as its goal and as each instant that is not reached yet. -/
theorem State.le_cyclesAhead_iff (s : State) (far k : Nat) : k ≤ s.cyclesAhead far ↔
    k ≤ far ∧ ∀ w ∈ Wait.all, ∀ y ∈ s.instantOf w, atOrAfter s.tb.coarse y = false → k ≤ (y - s.tb.coarse).toNat := by
  unfold State.cyclesAhead
  generalize Wait.all = l
  induction l generalizing far with
  | nil => simp
  | cons w l ih =>
    rw [List.foldl_cons, ih, List.forall_mem_cons]
    cases s.instantOf w with
    | none => simp
    | some y =>
      dsimp only
      cases hy : atOrAfter s.tb.coarse y with
      | true => simp [hy]
      | false => simp [hy, and_assoc]

/-- With a cycle to go, the number of rounds is no matter as long as it is enough. -/
theorem State.advance_fuel : ∀ (n m : Nat) (s : State) (x : Coarse), 1 ≤ (x - s.tb.coarse).toNat →
    (x - s.tb.coarse).toNat ≤ n → (x - s.tb.coarse).toNat ≤ m → State.advance n s x = State.advance m s x
  | 0, _, _, _, h1, hn, _ => by omega
  | _ + 1, 0, _, _, h1, _, hm => by omega
  | n + 1, m + 1, s, x, h1, hn, hm => by
    unfold State.advance
    dsimp only
    rw [s.settle_tb]
    have hpos := s.settle.cyclesAhead_pos h1
    split
    next hlt =>
      have hdist : (x - (s.tb.coarse + BitVec.ofNat 54 (s.settle.cyclesAhead (x - s.tb.coarse).toNat))).toNat =
          (x - s.tb.coarse).toNat - s.settle.cyclesAhead (x - s.tb.coarse).toNat := by
        generalize s.settle.cyclesAhead (x - s.tb.coarse).toNat = d at hpos hlt
        bv_omega
      refine State.advance_fuel n m _ x ?_ ?_ ?_ <;> rw [State.atCount_tb, Timebase.movedTo_coarse, hdist] <;> omega
    next => rfl

/-- The way to another count begins with all that is due at the present one. -/
theorem State.advanceTo_of_settle (h : s.settle = t.settle) (hc : s.tb.coarse = t.tb.coarse) (hne : tick ≠ s.tb.coarse) :
    s.advanceTo tick = t.advanceTo tick := by
  have hpos : (tick - s.tb.coarse).toNat ≠ 0 := fun h0 => hne (by bv_omega)
  unfold State.advanceTo
  rw [← hc]
  obtain ⟨n, hn⟩ := Nat.exists_eq_succ_of_ne_zero hpos
  rw [hn]
  unfold State.advance
  rw [h]

theorem State.atCount_atCount {y : Coarse} (hx : x ≠ s.tb.coarse) (hy : y ≠ s.tb.coarse) :
    (s.atCount x).atCount y = s.atCount y := by
  unfold State.atCount State.modTb Timebase.movedTo
  simp [hx, hy]

/-- With nothing due the counter goes on to the next instant before its goal, and from there to the goal. -/
theorem State.advanceTo_round (hs : s.settle = s) (hne : tick ≠ s.tb.coarse) : s.advanceTo tick =
    if s.cyclesAhead (tick - s.tb.coarse).toNat < (tick - s.tb.coarse).toNat then
      (s.atCount (s.tb.coarse + BitVec.ofNat 54 (s.cyclesAhead (tick - s.tb.coarse).toNat))).advanceTo tick
    else s.atCount tick := by
  have hpos : (tick - s.tb.coarse).toNat ≠ 0 := fun h0 => hne (by bv_omega)
  obtain ⟨n, hn⟩ := Nat.exists_eq_succ_of_ne_zero hpos
  have hd := s.cyclesAhead_pos (Nat.pos_of_ne_zero hpos)
  unfold State.advanceTo
  rw [hn, State.advance, hs, ← hn]
  split
  next hlt =>
    have hdist : (tick - (s.tb.coarse + BitVec.ofNat 54 (s.cyclesAhead (tick - s.tb.coarse).toNat))).toNat =
        (tick - s.tb.coarse).toNat - s.cyclesAhead (tick - s.tb.coarse).toNat := by
      generalize s.cyclesAhead (tick - s.tb.coarse).toNat = d at hlt hd
      bv_omega
    refine State.advance_fuel _ _ _ _ ?_ ?_ ?_ <;> rw [State.atCount_tb, Timebase.movedTo_coarse, hdist] <;> omega
  next => rfl

/-- At a count before the next instant nothing is due either, and that instant is as much nearer. -/
theorem State.passesNothing.atCount (h : s.passesNothing x) (hx : x ≠ s.tb.coarse)
    (hle : (x - s.tb.coarse).toNat ≤ (tick - s.tb.coarse).toNat)
    (hd : (x - s.tb.coarse).toNat < s.cyclesAhead (tick - s.tb.coarse).toNat) :
    (s.atCount x).nothingDue ∧ (s.atCount x).cyclesAhead (tick - x).toNat =
      s.cyclesAhead (tick - s.tb.coarse).toNat - (x - s.tb.coarse).toNat := by
  have hnow : (s.atCount x).tb.coarse = x := Timebase.movedTo_coarse ..
  have hinst (w : Wait) : (s.atCount x).instantOf w = s.instantOf w := by cases w <;> rfl
  have hdue : ∀ w ∈ Wait.all, ∀ y ∈ s.instantOf w, atOrAfter s.tb.coarse y = false := fun w hw y hy =>
    decide_eq_false (h.nothingDue (Ne.symm hx) w hw y hy)
  have hahead : ∀ w ∈ Wait.all, ∀ y ∈ s.instantOf w, (x - s.tb.coarse).toNat + 1 ≤ (y - s.tb.coarse).toNat :=
    fun w hw y hy => ((s.le_cyclesAhead_iff _ _).mp hd).2 w hw y hy (hdue w hw y hy)
  have hnot : ∀ w ∈ Wait.all, ∀ y ∈ s.instantOf w, ¬(x - y).toNat < 2 ^ 53 := by
    intro w hw y hy
    have h1 := hahead w hw y hy
    have h2 := (h w hw y hy).2
    bv_omega
  refine ⟨fun w hw y hy => ?_, eq_of_forall_le_iff fun j => ?_⟩
  · rw [hinst] at hy
    rw [hnow]
    exact hnot w hw y hy
  · have hfar : (tick - x).toNat = (tick - s.tb.coarse).toNat - (x - s.tb.coarse).toNat := by bv_omega
    have hshift : j ≤ s.cyclesAhead (tick - s.tb.coarse).toNat - (x - s.tb.coarse).toNat ↔
        j + (x - s.tb.coarse).toNat ≤ s.cyclesAhead (tick - s.tb.coarse).toNat := by omega
    rw [hshift, State.le_cyclesAhead_iff, State.le_cyclesAhead_iff, hnow, hfar]
    refine and_congr (by omega) (forall_congr' fun w => forall_congr' fun hw => ?_)
    rw [hinst]
    refine forall_congr' fun y => forall_congr' fun hy => ?_
    have h1 := hahead w hw y hy
    have hdist : (y - x).toNat = (y - s.tb.coarse).toNat - (x - s.tb.coarse).toNat := by bv_omega
    have hl : atOrAfter x y = false := decide_eq_false (hnot w hw y hy)
    rw [hdist, hl, hdue w hw y hy]
    simp only [forall_const]
    omega

/-- The counter comes to a later count by way of one that it comes to with no expiry. -/
theorem State.passesNothing.advanceTo_via (h : s.passesNothing x) (hx : x ≠ s.tb.coarse)
    (hle : (x - s.tb.coarse).toNat ≤ (tick - s.tb.coarse).toNat) : s.advanceTo tick = (s.atCount x).advanceTo tick := by
  have hnow : (s.atCount x).tb.coarse = x := Timebase.movedTo_coarse ..
  rcases Nat.eq_or_lt_of_le hle with heq | hlt
  · have hxt : x = tick := by bv_omega
    have hself := (s.atCount x).advanceTo_self
    rw [hnow] at hself
    rw [← hxt, hself, State.comesTo.advanceTo (.inr h)]
  · have htick : tick ≠ s.tb.coarse := fun e => by simp [e] at hlt
    have hround := State.advanceTo_round (h.nothingDue (Ne.symm hx)).settle htick
    have hk : (x - s.tb.coarse).toNat ≤ s.cyclesAhead (tick - s.tb.coarse).toNat :=
      (s.le_cyclesAhead_iff _ _).mpr ⟨hle, fun w hw y hy _ => (h w hw y hy).1⟩
    rcases Nat.eq_or_lt_of_le hk with hd | hd
    · have hstop : s.tb.coarse + BitVec.ofNat 54 (x - s.tb.coarse).toNat = x := by bv_omega
      rw [hround, ← hd, if_pos hlt, hstop]
    · obtain ⟨hdue, hnear⟩ := h.atCount hx hle hd
      have hxt : tick ≠ x := fun e => absurd hlt (by rw [e]; exact Nat.lt_irrefl _)
      have hround' := State.advanceTo_round (s := s.atCount x) (tick := tick) hdue.settle (by rw [hnow]; exact hxt)
      have hfar : (tick - x).toNat = (tick - s.tb.coarse).toNat - (x - s.tb.coarse).toNat := by bv_omega
      have hmost := ((s.le_cyclesAhead_iff (tick - s.tb.coarse).toNat _).mp (Nat.le_refl _)).1
      rw [hnow, hnear, State.atCount_atCount hx htick] at hround'
      generalize s.cyclesAhead (tick - s.tb.coarse).toNat = d at *
      have hgoal : x + BitVec.ofNat 54 (d - (x - s.tb.coarse).toNat) = s.tb.coarse + BitVec.ofNat 54 d := by bv_omega
      have hne : s.tb.coarse + BitVec.ofNat 54 d ≠ s.tb.coarse := fun e => by bv_omega
      rw [hgoal, State.atCount_atCount hx hne] at hround'
      rw [hround, hround']
      by_cases hstop : d < (tick - s.tb.coarse).toNat
      · rw [if_pos hstop, if_pos (by omega)]
      · rw [if_neg hstop, if_neg (by omega)]

end

end Sys2Proof.Machine
end

section
/-!
Holdoff and dead time, and the expiries that an edge finds due (R7, R30, R42).
-/

namespace Sys2Proof.Machine

section
variable {s t u v : State} {x tick : Coarse} {w : Wait}

/-! ## The waits in turn (R7) -/

theorem State.expire_pins (s : State) (w : Wait) (x : Coarse) :
    (s.expire w x).power = s.power ∧ (s.expire w x).levels = s.levels := by
  have close (g : Desc) (e : CloseEvent) : (s.closeGate g e).power = s.power ∧ (s.closeGate g e).levels = s.levels :=
    ⟨(EngineOnly.closeGate s g e).power, (EngineOnly.closeGate s g e).levels⟩
  cases w with
  | holdoff c => exact ⟨rfl, rfl⟩
  | deadTime c => exact ⟨rfl, rfl⟩
  | deadline =>
    obtain ⟨hp, -, hl, -⟩ := State.restKept.endCal s .osc
    exact ⟨hp, hl⟩
  | nominalEnd g =>
    have e := EngineOnly.nominalEnd s g x
    exact ⟨e.power, e.levels⟩
  | timeout g =>
    have e := EngineOnly.timeout s g x
    exact ⟨e.power, e.levels⟩
  | record g =>
    have e := EngineOnly.formation s g
    exact ⟨e.power, e.levels⟩

/-- The row of a wait that is due. -/
theorem exec_waitRow (hp : s.power = .ready) (hc : s.tb.counting = true) (hw : s.instantOf w = some x)
    (hdue : atOrAfter s.tb.coarse x = true) : exec w.row s = .next (s.expire w x).arbitrate := by
  have hexpiry : s.expiry w = s.expire w x := by
    unfold State.expiry
    rw [hw]
    dsimp only
    rw [if_pos hc, if_pos hdue]
    unfold State.expireIfDue
    rw [hw]
    exact if_pos hdue
  have hrow : exec w.row s = s.event (fun s => s.expiry w) := by cases w <;> rfl
  rw [hrow, State.event_ready hp, hexpiry]

/-- The waits that expire in turn, each by its own row, are a round. -/
theorem State.expiresInTurn_eq (hp : s.power = .ready) (hc : s.tb.counting = true) : s.expiresInTurn Wait.all = s.settleOnce := by
  unfold State.expiresInTurn State.settleOnce
  generalize Wait.all = l
  induction l generalizing s with
  | nil => rfl
  | cons w l ih =>
    rw [List.foldl_cons, List.foldl_cons]
    cases hw : s.instantOf w with
    | none => exact ih hp hc
    | some x =>
      dsimp only [Option.any_some]
      by_cases hdue : atOrAfter s.tb.coarse x = true
      · rw [if_pos hdue, if_pos (show decide ((s.tb.coarse - x).toNat < 2 ^ 53) = true from hdue), exec_waitRow hp hc hw hdue]
        obtain ⟨hpow, -⟩ := s.expire_pins w x
        exact ih (by rw [State.arbitrate_power, hpow, hp]) (by rw [State.arbitrate_tb, State.expire_tb, hc])
      · rw [if_neg hdue, if_neg (show ¬decide ((s.tb.coarse - x).toNat < 2 ^ 53) = true from hdue)]
        exact ih hp hc

theorem State.settleOnce_pins (s : State) :
    s.settleOnce.power = s.power ∧ s.settleOnce.levels = s.levels ∧ s.settleOnce.tb = s.tb :=
  State.settleOnce_keeps (P := fun u => u.power = s.power ∧ u.levels = s.levels ∧ u.tb = s.tb)
    (fun u w y ⟨hp, hl, ht⟩ => by
      obtain ⟨hp', hl'⟩ := u.expire_pins w y
      rw [State.arbitrate_power, State.arbitrate_levels, State.arbitrate_tb, State.expire_tb, hp', hl']
      exact ⟨hp, hl, ht⟩) ⟨rfl, rfl, rfl⟩

/-- A round in which nothing is due does nothing. -/
theorem State.settleOnce_idle (h : Wait.all.any s.isDue = false) : s.settleOnce = s := by
  refine foldl_unchanged fun w hw => ?_
  have hd := List.any_eq_false.mp h w hw
  unfold State.isDue at hd
  cases hx : s.instantOf w with
  | none => rfl
  | some x =>
    rw [hx] at hd
    exact if_neg hd

theorem State.settleIn_idle (h : Wait.all.any s.isDue = false) : ∀ n : Nat, State.settleIn n s = s
  | 0 => rfl
  | n + 1 => by
    unfold State.settleIn
    rw [h]
    rfl

/-- Where one round leaves nothing due, it is all that happens. -/
theorem State.settle_of_once (h : s.settleOnce.nothingDue) : s.settle = s.settleOnce := by
  unfold State.settle
  obtain ⟨n, hn⟩ : ∃ n, Wait.all.length = n + 1 := ⟨_, rfl⟩
  rw [hn]
  unfold State.settleIn
  by_cases hdue : Wait.all.any s.isDue = true
  · rw [if_pos hdue, State.settleIn_idle h.isDue]
  · rw [if_neg hdue, State.settleOnce_idle (by simpa using hdue)]

/-! ## An edge and what is due before it -/

theorem State.nothingDue.atLevels (h : s.nothingDue) (lv : Levels) : (s.atLevels lv).nothingDue := fun w hw y hy =>
  h w hw y (by rw [← State.atLevels_instantOf s lv]; exact hy)

/-- An edge in RUN or RELOCK at a tick still to come, or at a present tick that has come. -/
theorem exec_inputEdge_closes (hp : s.power = .ready) (hrun : s.tb.state = .run ∨ s.tb.state = .relock)
    (ht : s.tb.ticked = true ∨ tick ≠ s.tb.coarse) (input : PhysIn) (rising : Bool) (bins : Vector Bin 4) (chans : List Chan)
    (takings : List (Chan × Desc)) :
    exec (.inputEdge input rising tick bins chans takings) s =
      .next (((s.atLevels (s.levels.put input rising)).advanceTo tick).processEdge input rising tick bins chans takings).arbitrate := by
  show Host.Outcome.next (if s.power = .ready ∧ s.tb.closesAt tick = true then _ else _) = _
  rw [if_pos ⟨hp, Timebase.closesAt_iff.mpr ⟨hrun, ht⟩⟩]
  rfl

/-- An edge finds the counter going over every count on its way. -/
theorem exec_inputEdge_via (hp : s.power = .ready) (hrun : s.tb.state = .run ∨ s.tb.state = .relock) (h : s.comesTo x)
    (hle : (x - s.tb.coarse).toNat ≤ (tick - s.tb.coarse).toNat) (input : PhysIn) (rising : Bool) (bins : Vector Bin 4)
    (chans : List Chan) (takings : List (Chan × Desc)) :
    exec (.inputEdge input rising tick bins chans takings) s =
      exec (.inputEdge input rising tick bins chans takings) { s with tb := s.tb.movedTo x } := by
  by_cases hx : x = s.tb.coarse
  · subst hx
    exact congrArg _ s.atCount_self.symm
  · have hpass : s.passesNothing x := h.resolve_left (Ne.symm hx)
    have htick : tick ≠ s.tb.coarse := by
      rintro rfl
      exact hx (by bv_omega)
    have hticked : (s.tb.movedTo x).ticked = true := by simp [Timebase.movedTo, hx]
    have hvia := State.passesNothing.advanceTo_via (s := s.atLevels (s.levels.put input rising)) (tick := tick)
      (fun w hw y hy => hpass w hw y (by rw [← State.atLevels_instantOf s (s.levels.put input rising)]; exact hy)) hx hle
    rw [exec_inputEdge_closes hp hrun (.inr htick), hvia,
      exec_inputEdge_closes (s := { s with tb := s.tb.movedTo x }) hp hrun (.inl hticked)]
    rfl

/-- What is due at the present count expires before the counter leaves it for the edge. -/
theorem exec_inputEdge_afterDue (hp : s.power = .ready) (hrun : s.tb.state = .run ∨ s.tb.state = .relock)
    (htick : tick ≠ s.tb.coarse) (hdue : s.settleOnce.nothingDue) (input : PhysIn) (rising : Bool) (bins : Vector Bin 4)
    (chans : List Chan) (takings : List (Chan × Desc)) :
    exec (.inputEdge input rising tick bins chans takings) s =
      exec (.inputEdge input rising tick bins chans takings) s.settleOnce := by
  obtain ⟨hpow, hlev, htb⟩ := s.settleOnce_pins
  have hround := s.atLevels_settleOnce (s.levels.put input rising)
  have hnone : (s.settleOnce.atLevels (s.levels.put input rising)).nothingDue := hdue.atLevels _
  have hsettle : (s.atLevels (s.levels.put input rising)).settle = (s.settleOnce.atLevels (s.levels.put input rising)).settle := by
    rw [hnone.settle, State.settle_of_once (by rw [hround]; exact hnone), hround]
  rw [exec_inputEdge_closes hp hrun (.inr htick), exec_inputEdge_closes (s := s.settleOnce) (hpow.trans hp)
    (by rw [htb]; exact hrun) (by rw [htb]; exact .inr htick), hlev,
    State.advanceTo_of_settle hsettle (by rw [State.atLevels_tb, State.atLevels_tb, htb]) htick]

/-- Settles O16: the two expiries, and the counter that passes no instant without its expiry. -/
theorem holdoffAndDeadTimeExpire : Obligations.HoldoffAndDeadTimeExpire := by
  unfold Obligations.HoldoffAndDeadTimeExpire
  refine ⟨fun s c x hp hrun hx => ?_, fun s input rising tick bins chans takings hp hrun => ?_⟩
  · intro reached
    have hreached : s.tb.movedTo (s.reachedCount x) = reached := rfl
    refine ⟨fun hh => ?_, fun hd => ?_⟩
    · refine ⟨_, State.event_to hp (f := Instr.effect (.holdoffExpiry c)) (State.expiry_at (w := .holdoff c) hh hrun hx), rfl,
        fun d => ?_⟩
      exact State.chan_modChan _ c d _
    · refine ⟨_, State.event_to hp (f := Instr.effect (.deadTimeExpiry c)) (State.expiry_at (w := .deadTime c) hd hrun hx), rfl,
        fun d => ?_⟩
      exact State.chan_modChan _ c d _
  · intro edge
    refine ⟨fun x h hle => exec_inputEdge_via hp hrun h hle input rising bins chans takings, ?_⟩
    intro channels descriptors u htick hdue
    have hu : u = s.settleOnce := State.expiresInTurn_eq hp (Timebase.counting_of_run hrun)
    rw [hu] at hdue ⊢
    exact exec_inputEdge_afterDue hp hrun htick hdue input rising bins chans takings

end

end Sys2Proof.Machine
end
